-- ==== Sys2Proof/Word.lean ====
section
/-!
DEFINITION. The word types of the K960 and their plainest arithmetic. Every multi-byte value is
little-endian (R5).
-/

namespace Sys2Proof

/-- A 64-bit general register value (R118). -/
abbrev Word := BitVec 64

/-- One byte. -/
abbrev Byte := BitVec 8

/-- A scalar instruction word (R53). -/
abbrev SWord := BitVec 32

/-- A vector instruction word (R53, R65). -/
abbrev VWord := BitVec 64

/-- A general register number, g0 to g31 (R54). -/
abbrev GReg := BitVec 5

/-- A vector register field: codes 0 to 23 are v0 to v23, 24 to 31 the stream heads h0 to h7 (R56). -/
abbrev VReg := BitVec 5

/-- A mask register field: codes 0 to 23 are k0 to k23 (R56). -/
abbrev KReg := BitVec 5

/-- A port number, q0 to q15 (R54). -/
abbrev Port := BitVec 4

end Sys2Proof
end

