-- ==== Sys2Proof/Syntax.lean ====
section
/-!
DEFINITION. The instruction set of the K960 as syntax: one constructor of `Instr` for each row of the
opcode table. Scalar words (R54-R64) and vector words (R65-R68) carry their operand fields; an event or
a command names the unit it happens at and what arrives from outside the package.
-/

namespace Sys2Proof

/-- Accuracy classes (R58). -/
inductive ACls where
  | ex | tp | lg
  deriving DecidableEq, Repr

/-- Rounding modes (R59). -/
inductive RMode where
  | rne | rz | rd | ru | rna | sr
  deriving DecidableEq, Repr

/-- Access sizes of scalar loads and stores (R54). -/
inductive Sz where
  | b | h | w | d
  deriving DecidableEq, Repr

/-- Sizes of scalar atomics (R64). -/
inductive ASz where
  | w | d
  deriving DecidableEq, Repr

/-- Ordering codes: relaxed, or acquire and release at device or system scope (R54, R64, R260, R321). -/
inductive Ord where
  | relaxed | device | system
  deriving DecidableEq, Repr

/-- Element types, codes 0 to 14 (R57). -/
inductive ETy where
  | i8 | i16 | i32 | i64 | u8 | u16 | u32 | u64 | f16 | bf16 | f32 | e4m3 | e5m2 | mx4 | w56
  deriving DecidableEq, Repr

/-- Compare conditions (R221). -/
inductive Cond where
  | eq | ne | lt | le | gt | ge | un
  deriving DecidableEq, Repr

/-- Scan operators (R232). -/
inductive ScanOp where
  | sum | max | min
  deriving DecidableEq, Repr

/-- Index widths of indexed accesses (R260, R321). -/
inductive IdxW where
  | w16 | w32 | w64
  deriving DecidableEq, Repr

/-- Atomic operations: the codes of R318, and CAS of R321. -/
inductive AOp where
  | add | and | or | xor | min | max | minu | maxu | swap | cas
  deriving DecidableEq, Repr

/-- The fields every vector word with an element loop shares (R65). -/
structure VHdr where
  /-- Accuracy class. -/
  cls : ACls
  /-- Governing mask register. -/
  km : KReg
  /-- 1 uses the complement of the mask. -/
  kn : Bool
  /-- Density-time bit. -/
  dt : Bool
  /-- Chained to the next word. -/
  ch : Bool
  /-- Element type. -/
  et : ETy
  deriving DecidableEq, Repr

/-- What a package's records of a channel on a circuit count (R176): tokens its producers have sent and credits they
have received; tokens written and consumed, where the consumer is there. -/
structure EndCounts where
  handle : BitVec 32
  sent : BitVec 32
  received : BitVec 32
  written : BitVec 32
  consumed : BitVec 32
  deriving DecidableEq, Repr

/-- One network's part of a connected set, as its package latched it at a snapshot (R176-R178). -/
structure SetPart where
  pkg : Nat
  /-- The network, as its package numbers it. -/
  net : Nat
  /-- Cue time of the snapshot. -/
  time : Nat
  /-- It is in motion by what stands there. -/
  moves : Bool
  /-- Some process of it is parked on channel write. -/
  writes : Bool
  /-- Its circuits: handle, and the package each leads to. -/
  links : List (BitVec 32 × Nat)
  counts : List EndCounts
  /-- Channels with a producer of it parked on write without a credit: handle and capacity. -/
  blocked : List (BitVec 32 × Nat)
  /-- Channels with their consumer there whose growth the SPILL quota does not admit. -/
  tight : List (BitVec 32)
  deriving DecidableEq, Repr

/-- What another package's stage manager sends on a circuit: the parts of a connected set it knows of (R177); an end of
the channel whose process has retired there, 0 for the consumer and k + 1 for producer k (R161). -/
structure FarEnd where
  parts : List SetPart
  gone : Option Nat
  deriving DecidableEq, Repr

/-- A Viaduct flit as the port's receiver sees it (R422, R423). -/
structure Flit where
  /-- Sequence number of the header. -/
  seq : Nat
  /-- The FEC could correct the codeword. -/
  corrected : Bool
  /-- CRC-32 of the header. -/
  crc : BitVec 32
  /-- Destination package of the packet. -/
  dst : Nat
  /-- The 32 payload bytes. -/
  payload : List Byte
  deriving DecidableEq, Repr

/-- A bulk block: its header and its 512 payload bytes (R424). -/
structure BulkBlock where
  header : BitVec 64
  payload : List Byte
  /-- Words of the payload that arrive poisoned (R454), bit w for bytes 8w to 8w + 7. -/
  poison : BitVec 64
  deriving DecidableEq, Repr

/-- A circuit token packet (R425). -/
structure CircToken where
  /-- Handle the packet names: INDEX and GEN (R148). -/
  handle : BitVec 32
  /-- Producer port of the channel, counted from 0. -/
  prod : Nat
  /-- Circuit sequence number. -/
  seq : BitVec 32
  data : List Byte
  tag : Byte
  poison : Byte
  deriving DecidableEq, Repr

/-- A circuit credit packet (R425). -/
structure CircCredit where
  handle : BitVec 32
  prod : Nat
  seq : BitVec 32
  /-- Credits carried, at most 16. -/
  count : Nat
  deriving DecidableEq, Repr

/-- What a line request does at the instant it is performed, here or at another package (R298, R303, R318, R323,
R325-R328). -/
inductive ReqKind where
  /-- Read `n` bytes. -/
  | read (n : Nat)
  /-- Write bytes, each with the poison of the data it comes from. -/
  | write (bytes : List Byte) (poison : List Bool)
  /-- The same for a store that completes words: each, counted from the word of the first byte, with its poison
  (R263). -/
  | fill (bytes : List Byte) (poison : List Bool) (whole : List (Nat × Bool))
  /-- A scalar atomic: nothing is performed on a poisoned word (R318). -/
  | amo (op : AOp) (n : Nat) (x expect : Nat)
  /-- A unit of VAMO or VAMOO (R323); `flt` for `.f32`, `psn` the poison of its operands. -/
  | vamo (op : AOp) (n : Nat) (flt : Bool) (x expect : Nat) (psn : Bool)
  /-- A linked read (R325). -/
  | linked (n : Nat)
  /-- A conditional write (R325). -/
  | cond (bytes : List Byte) (poison : List Bool)
  /-- A scatter-add addition (R326). -/
  | sadd (n : Nat) (flt : Bool) (x : Nat) (psn : Bool)
  deriving DecidableEq, Repr

/-- A remote line request arriving at this package (R427). -/
structure RemReq where
  /-- Requesting package. -/
  src : Nat
  /-- The requester's own number of the request, returned with the reply. -/
  id : Nat
  /-- The requesting agent's number on its package: the source of its links (R325). -/
  agent : Nat
  tenant : Nat
  key : BitVec 12
  gen : BitVec 12
  /-- Byte offset within the registration. -/
  off : Nat
  kind : ReqKind
  deriving DecidableEq, Repr

/-- A reply to a remote line request of this package (R427): what the server answered, with the outcome of a
conditional write and the flags raised (R323, R325); or a NAK with its cause; or a NAK retry (R430). -/
inductive RemRep where
  | done (bytes : List Byte) (poison : List Bool) (ok : Bool) (flags : BitVec 5)
  | nak (cause : Byte)
  | retry
  deriving DecidableEq, Repr

/-- The fate of one transfer packet at its target (R435). -/
structure PktAck where
  /-- Post number of the packet. -/
  post : Nat
  /-- Byte offset of the packet in the message. -/
  off : Nat
  rep : RemRep
  deriving DecidableEq, Repr

/-- A message packet arriving at this package (R435, R436). -/
structure MsgPkt where
  src : Nat
  id : Nat
  tenant : Nat
  key : BitVec 12
  gen : BitVec 12
  /-- Offset of the packet's bytes within the registration. -/
  regOff : Nat
  /-- Source queue handle. -/
  srcQ : BitVec 32
  post : Nat
  /-- Byte offset within the message, and the message's length. -/
  off : Nat
  len : Nat
  /-- Handle of the target queue. -/
  tqh : BitVec 32
  bytes : List Byte
  poison : List Bool
  deriving DecidableEq, Repr

/-- The collective binding a package compares with its neighbours (R438). -/
structure CollDigest where
  devcnt : Nat
  /-- Package of each rank. -/
  ranks : List Nat
  tag : BitVec 32
  deriving DecidableEq, Repr

/-- A neighbour's digest for collective n (R438), with the type, operation and COUNT of its XCOLL (R440). -/
structure DigestMsg where
  n : Nat
  /-- True from rank r - 1, false from rank r + 1. -/
  fromPrev : Bool
  digest : CollDigest
  et : BitVec 4
  op : BitVec 2
  count : Nat
  deriving DecidableEq, Repr

/-- A chunk of a collective arriving from a neighbour's relay engine (R440). -/
structure ChunkMsg where
  n : Nat
  chunk : Nat
  /-- The final result, on its way round; otherwise a partial result from rank r - 1. -/
  final : Bool
  bytes : List Byte
  poison : List Bool
  deriving DecidableEq, Repr

/-- The instructions, events and commands of the K960, one constructor per row of the opcode table. -/
inductive Instr where
  /-- SYSC (R407). Drains as FENCE.VS, then traps with cause 0x09 to ask the tenant's software for a service. -/
  | sysc
  /-- ERET (R408). In privileged service code, clears PRIV, restores the slot's process from its context and continues at its EPC. -/
  | eret
  /-- BRK (R407). Drains as FENCE.VS, then traps with cause 0x0A as a breakpoint. -/
  | brk
  /-- RETIRE (R138). Ends the process once its earlier vector work, stores and transfers have completed, parking for vector drain until then. -/
  | retire
  /-- ADD (R120). Writes gb + gc, wrapped to 64 bits, to ga. -/
  | add (a b c : GReg)
  /-- SUB (R120). Writes gb - gc, wrapped to 64 bits, to ga. -/
  | sub (a b c : GReg)
  /-- AND (R120). Writes the bitwise AND of gb and gc to ga. -/
  | and (a b c : GReg)
  /-- OR (R120). Writes the bitwise OR of gb and gc to ga. -/
  | or (a b c : GReg)
  /-- XOR (R120). Writes the bitwise XOR of gb and gc to ga. -/
  | xor (a b c : GReg)
  /-- ANDN (R120). Writes gb AND NOT gc to ga. -/
  | andn (a b c : GReg)
  /-- ORN (R120). Writes gb OR NOT gc to ga. -/
  | orn (a b c : GReg)
  /-- SLL (R120). Writes gb shifted left by gc[5:0] to ga. -/
  | sll (a b c : GReg)
  /-- SRL (R120). Writes gb shifted right logically by gc[5:0] to ga. -/
  | srl (a b c : GReg)
  /-- SRA (R120). Writes gb shifted right arithmetically by gc[5:0] to ga. -/
  | sra (a b c : GReg)
  /-- ROL (R120). Writes gb rotated left by gc[5:0] to ga. -/
  | rol (a b c : GReg)
  /-- ROR (R120). Writes gb rotated right by gc[5:0] to ga. -/
  | ror (a b c : GReg)
  /-- SLT (R120). Writes 1 to ga if gb is less than gc as signed values, otherwise 0. -/
  | slt (a b c : GReg)
  /-- SLTU (R120). Writes 1 to ga if gb is less than gc as unsigned values, otherwise 0. -/
  | sltu (a b c : GReg)
  /-- MIN (R120). Writes the signed minimum of gb and gc to ga. -/
  | min (a b c : GReg)
  /-- MAX (R120). Writes the signed maximum of gb and gc to ga. -/
  | max (a b c : GReg)
  /-- MINU (R120). Writes the unsigned minimum of gb and gc to ga. -/
  | minu (a b c : GReg)
  /-- MAXU (R120). Writes the unsigned maximum of gb and gc to ga. -/
  | maxu (a b c : GReg)
  /-- CLZ (R120). Writes the number of leading zero bits of gb to ga. -/
  | clz (a b : GReg)
  /-- CTZ (R120). Writes the number of trailing zero bits of gb to ga. -/
  | ctz (a b : GReg)
  /-- POPC (R120). Writes the number of one bits of gb to ga. -/
  | popc (a b : GReg)
  /-- BREV (R120). Writes gb with its bit order reversed to ga. -/
  | brev (a b : GReg)
  /-- BSWAP (R120). Writes gb with its byte order reversed to ga. -/
  | bswap (a b : GReg)
  /-- SEXTB (R120). Writes gb[7:0] sign-extended to ga. -/
  | sextb (a b : GReg)
  /-- SEXTH (R120). Writes gb[15:0] sign-extended to ga. -/
  | sexth (a b : GReg)
  /-- SEXTW (R120). Writes gb[31:0] sign-extended to ga. -/
  | sextw (a b : GReg)
  /-- ZEXTW (R120). Writes gb[31:0] zero-extended to ga. -/
  | zextw (a b : GReg)
  /-- ADDI (R121). Writes gb plus the sign-extended immediate to ga. -/
  | addi (a b : GReg) (imm : BitVec 16)
  /-- ANDI (R121). Writes gb AND the zero-extended immediate to ga. -/
  | andi (a b : GReg) (imm : BitVec 16)
  /-- ORI (R121). Writes gb OR the zero-extended immediate to ga. -/
  | ori (a b : GReg) (imm : BitVec 16)
  /-- XORI (R121). Writes gb XOR the zero-extended immediate to ga. -/
  | xori (a b : GReg) (imm : BitVec 16)
  /-- SLTI (R121). Writes 1 to ga if gb is below the sign-extended immediate as signed values. -/
  | slti (a b : GReg) (imm : BitVec 16)
  /-- SLTIU (R121). Writes 1 to ga if gb is below the sign-extended immediate as unsigned values. -/
  | sltiu (a b : GReg) (imm : BitVec 16)
  /-- SLLI (R122). Writes gb shifted left by the immediate amount to ga. -/
  | slli (a b : GReg) (n : BitVec 6)
  /-- SRLI (R122). Writes gb shifted right logically by the immediate amount to ga. -/
  | srli (a b : GReg) (n : BitVec 6)
  /-- SRAI (R122). Writes gb shifted right arithmetically by the immediate amount to ga. -/
  | srai (a b : GReg) (n : BitVec 6)
  /-- LIH (R123). Places the 16-bit immediate at position pos of ga and leaves its other bits unchanged. -/
  | lih (a : GReg) (pos : BitVec 2) (imm : BitVec 16)
  /-- MUL (R124). Writes the low 64 bits of gb times gc to ga. -/
  | mul (a b c : GReg)
  /-- MULH (R124). Writes the high 64 bits of the signed product of gb and gc to ga. -/
  | mulh (a b c : GReg)
  /-- MULHU (R124). Writes the high 64 bits of the unsigned product of gb and gc to ga. -/
  | mulhu (a b c : GReg)
  /-- DIV (R124). Writes the signed quotient of gb by gc, truncated toward zero, to ga, never trapping. -/
  | div (a b c : GReg)
  /-- DIVU (R124). Writes the unsigned quotient of gb by gc to ga, never trapping. -/
  | divu (a b c : GReg)
  /-- REM (R124). Writes the signed remainder of gb by gc to ga, never trapping. -/
  | rem (a b c : GReg)
  /-- REMU (R124). Writes the unsigned remainder of gb by gc to ga, never trapping. -/
  | remu (a b c : GReg)
  /-- FADD (R125). Writes the FP32 sum of gb and gc, rounded to nearest even, to ga. -/
  | fadd (a b c : GReg)
  /-- FSUB (R125). Writes the FP32 difference of gb and gc to ga. -/
  | fsub (a b c : GReg)
  /-- FMUL (R125). Writes the FP32 product of gb and gc under the accuracy class to ga. -/
  | fmul (cls : ACls) (a b c : GReg)
  /-- FMA (R125). Writes the FP32 product of gb and gc under the class, plus ga, rounded once, to ga. -/
  | fma (cls : ACls) (a b c : GReg)
  /-- FDIV (R126). Writes the correctly rounded FP32 quotient of gb by gc to ga. -/
  | fdiv (a b c : GReg)
  /-- FSQRT (R126). Writes the correctly rounded FP32 square root of gb to ga. -/
  | fsqrt (a b : GReg)
  /-- FMIN (R125). Writes the smaller FP32 value of gb and gc to ga. -/
  | fmin (a b c : GReg)
  /-- FMAX (R125). Writes the larger FP32 value of gb and gc to ga. -/
  | fmax (a b c : GReg)
  /-- FCMPEQ (R125). Writes 1 to ga if the FP32 values of gb and gc are equal. -/
  | fcmpeq (a b c : GReg)
  /-- FCMPLT (R125). Writes 1 to ga if the FP32 value of gb is below that of gc, raising NV for a NaN. -/
  | fcmplt (a b c : GReg)
  /-- FCMPLE (R125). Writes 1 to ga if the FP32 value of gb is at most that of gc, raising NV for a NaN. -/
  | fcmple (a b c : GReg)
  /-- FCVTIF (R125). Converts the FP32 value in gb to a 64-bit signed integer in ga under the rounding mode. -/
  | fcvtif (rm : RMode) (a b : GReg)
  /-- FCVTFI (R125). Converts the signed integer in gb to FP32 in ga under the rounding mode. -/
  | fcvtfi (rm : RMode) (a b : GReg)
  /-- FCVTBF (R125). Converts the FP32 value in gb to BF16 in ga under the rounding mode. -/
  | fcvtbf (rm : RMode) (a b : GReg)
  /-- FCVTFB (R125). Converts the BF16 value in gb[15:0] exactly to FP32 in ga. -/
  | fcvtfb (a b : GReg)
  /-- LD (R129). Loads n bytes at gb plus the displacement, sign-extended, into ga, parking for a device reply. -/
  | ld (sz : Sz) (ord : Ord) (a b : GReg) (disp : BitVec 12)
  /-- LDU (R129). Loads n bytes at gb plus the displacement, zero-extended, into ga. -/
  | ldu (sz : Sz) (ord : Ord) (a b : GReg) (disp : BitVec 12)
  /-- ST (R129). Stores the low n bytes of ga at gb plus the displacement. -/
  | st (sz : Sz) (ord : Ord) (a b : GReg) (disp : BitVec 12)
  /-- AMOADD (R318). Atomically adds gc to memory at gb at its server and returns the old value in ga. -/
  | amoadd (sz : ASz) (ord : Ord) (a b c : GReg)
  /-- AMOAND (R318). Atomically ANDs gc into memory at gb and returns the old value in ga. -/
  | amoand (sz : ASz) (ord : Ord) (a b c : GReg)
  /-- AMOOR (R318). Atomically ORs gc into memory at gb and returns the old value in ga. -/
  | amoor (sz : ASz) (ord : Ord) (a b c : GReg)
  /-- AMOXOR (R318). Atomically XORs gc into memory at gb and returns the old value in ga. -/
  | amoxor (sz : ASz) (ord : Ord) (a b c : GReg)
  /-- AMOMIN (R318). Atomically stores the signed minimum of memory at gb and gc and returns the old value. -/
  | amomin (sz : ASz) (ord : Ord) (a b c : GReg)
  /-- AMOMAX (R318). Atomically stores the signed maximum of memory at gb and gc and returns the old value. -/
  | amomax (sz : ASz) (ord : Ord) (a b c : GReg)
  /-- AMOMINU (R318). Atomically stores the unsigned minimum of memory at gb and gc and returns the old value. -/
  | amominu (sz : ASz) (ord : Ord) (a b c : GReg)
  /-- AMOMAXU (R318). Atomically stores the unsigned maximum of memory at gb and gc and returns the old value. -/
  | amomaxu (sz : ASz) (ord : Ord) (a b c : GReg)
  /-- AMOSWAP (R318). Atomically swaps gc into memory at gb and returns the old value in ga. -/
  | amoswap (sz : ASz) (ord : Ord) (a b c : GReg)
  /-- CAS (R318). Atomically writes gc at gb if memory equals ga, and returns the old value in ga. -/
  | cas (sz : ASz) (ord : Ord) (a b c : GReg)
  /-- BEQ (R133). Branches by the word displacement if ga equals gb. -/
  | beq (a b : GReg) (disp : BitVec 16)
  /-- BNE (R133). Branches by the word displacement if ga differs from gb. -/
  | bne (a b : GReg) (disp : BitVec 16)
  /-- BLT (R133). Branches if ga is below gb as signed values. -/
  | blt (a b : GReg) (disp : BitVec 16)
  /-- BGE (R133). Branches if ga is at least gb as signed values. -/
  | bge (a b : GReg) (disp : BitVec 16)
  /-- BLTU (R133). Branches if ga is below gb as unsigned values. -/
  | bltu (a b : GReg) (disp : BitVec 16)
  /-- BGEU (R133). Branches if ga is at least gb as unsigned values. -/
  | bgeu (a b : GReg) (disp : BitVec 16)
  /-- JAL (R134). Writes PC + 4 to ga and jumps by the 21-bit word displacement. -/
  | jal (a : GReg) (disp : BitVec 21)
  /-- JALR (R135). Writes PC + 4 to ga and jumps to gb plus the sign-extended immediate. -/
  | jalr (a b : GReg) (imm : BitVec 16)
  /-- SIG (R416). Checks the previous block's CRC and starts CRC accumulation of a new scalar block, or does nothing with checking off. -/
  | sig (sig : BitVec 16)
  /-- RECV (R166). Takes the head token of the port, writing its data to ga and its tag to the next register, parking while none is present. -/
  | recv (a : GReg) (q : Port)
  /-- RECVN (R166). Takes the head data token of the port into ga, trapping on a control or fault-notice tag. -/
  | recvn (a : GReg) (q : Port)
  /-- SEND (R165). Spends a credit and places a data token holding ga on the port's channel, parking while it has no credit. -/
  | send (a : GReg) (q : Port)
  /-- SENDC (R165). Spends a credit and places a token holding ga with a control tag 1-127 on the port's channel. -/
  | sendc (a : GReg) (q : Port) (tag : BitVec 8)
  /-- VCONF (R188). After a vector drain, divides the row budget into n registers and b buffer groups, zeroes them and the masks, and writes VGEOM to ga. -/
  | vconf (a : GReg) (n : BitVec 3) (b : BitVec 4)
  /-- VFETCH (R189). Appends a vector block with a snapshot of the general registers and granted sizes to the block queue. -/
  | vfetch (disp : BitVec 21)
  /-- VLOOP (R356). Adds steps to the named streams and enters a loop task with its body, trip count and event masks into the block queue. -/
  | vloop (a b c : GReg)
  /-- FENCE_SV (R373). Parks until every earlier scalar access is performed, ordering them before later vector entries. -/
  | fenceSv
  /-- FENCE_VS (R374). Parks until every earlier vector and matrix entry has retired and its accesses are performed. -/
  | fenceVs
  /-- FENCE_VV (R375). Places a fence entry in the block queue that holds later entries until earlier vector accesses are performed. -/
  | fenceVv
  /-- VSYNC (R376). Parks until every earlier scratchpad store of the process has been performed. -/
  | vsync
  /-- MSETL (R276). Clamps M, N and K in ga, gb, gc to the granted sizes and writes them back. -/
  | msetl (a b c : GReg)
  /-- SCONF (R346). Reads and checks a stream record and configures the stream as copy or bound. -/
  | sconf (b : GReg) (stream : BitVec 3)
  /-- SSTEP (R348). Makes one step on every bound stream named in the mask. -/
  | sstep (mask : BitVec 8)
  /-- SKICK (R347). Kicks a transfer of the stream at offset gb as a system-scope release to its kick word and assigns it the next identifier. -/
  | skick (b : GReg) (stream : BitVec 3)
  /-- STWAIT (R349). Parks until the stream's watermark reaches the identifier in gb or faults, then writes the watermark word to ga. -/
  | stwait (a b : GReg) (stream : BitVec 3)
  /-- SDRAIN (R350). Waits for or discards the stream's outstanding work and makes the stream unconfigured. -/
  | sdrain (stream : BitVec 3)
  /-- DISPQ (R329). Sends one query to a box office, whose answer is written at the scratchpad address in gb. -/
  | dispq (b : GReg) (ev : BitVec 8) (box : BitVec 5)
  /-- EVSET (R354). Sets the event bits named by the specification in gb. -/
  | evset (b : GReg)
  /-- EVCLR (R354). Clears the event bits named by the specification in gb. -/
  | evclr (b : GReg)
  /-- EVWAIT (R354). Parks until every named event bit is set, then consumes them. -/
  | evwait (b : GReg)
  /-- CUE (R383). Checks the control word in gc and arms or disarms a cue slot to act when the cue clock reaches gb. -/
  | cue (b c : GReg)
  /-- CUEWAIT (R381). Parks until the tile's cue clock reaches gb. -/
  | cuewait (b : GReg)
  /-- RDCUE (R380). Writes the cue clock to ga. -/
  | rdcue (a : GReg)
  /-- XPOST (R434). Reads a work request and posts a remote transfer on a transfer queue as a system-scope release. -/
  | xpost (b c : GReg)
  /-- XWAIT (R437). Parks until a DONE, ARRIVED or COLL count reaches VALUE, then writes the count or traps on a fault. -/
  | xwait (a b : GReg)
  /-- XCOLL (R439). Checks and starts an in-place all-reduce over the buffer at gc on a relay engine. -/
  | xcoll (b c : GReg)
  /-- CTLR (R139). Copies the control register at the index into ga. -/
  | ctlr (a : GReg) (x : BitVec 12)
  /-- CTLW (R139). Copies gb into a control register that has no behaviour of its own, under its access codes. -/
  | ctlw (b : GReg) (x : BitVec 12)
  /-- CTLR_VFLAGS (R98). Parks for vector drain, then returns the sticky flags of all earlier scalar, vector and matrix work. -/
  | ctlrVflags (a : GReg)
  /-- CTLR_FFE (R268). Parks for vector drain, then returns the first-failing unit of the last VLDFF. -/
  | ctlrFfe (a : GReg)
  /-- CTLR_PMBOX (R116). In the privileged state reads a mailbox register, seeing writes issued eight or more cycles before. -/
  | ctlrPmbox (a : GReg) (k : BitVec 3)
  /-- CTLW_VFLAGS (R98). Waits for earlier vector work to retire, then replaces the sticky flags. -/
  | ctlwVflags (b : GReg)
  /-- CTLW_FFE (R139). Waits for earlier vector work to retire, then sets FFE. -/
  | ctlwFfe (b : GReg)
  /-- CTLW_VBCNT (R139). Waits for earlier vector work to retire, then sets a bank-conflict counter. -/
  | ctlwVbcnt (b : GReg) (k : BitVec 3)
  /-- CTLW_SRSEED (R99). Waits until earlier seed readers have read, then replaces the stochastic-rounding seed in vector program order. -/
  | ctlwSrseed (b : GReg)
  /-- CTLW_XTAB0 (R218). Waits until every earlier VCVTX has latched, then replaces table entries 0-7. -/
  | ctlwXtab0 (b : GReg)
  /-- CTLW_XTAB1 (R218). Waits until every earlier VCVTX has latched, then replaces table entries 8-15. -/
  | ctlwXtab1 (b : GReg)
  /-- CTLW_ENCORE (R419). Sets encore mode for entries introduced afterwards and the replay count. -/
  | ctlwEncore (b : GReg)
  /-- CTLW_PMBOX (R116). In the privileged state writes a tile mailbox register, visible eight cycles later to every slot. -/
  | ctlwPmbox (b : GReg) (k : BitVec 3)
  /-- VSTOP (R192). Ends the current vector block, comparing its signature, and moves to the next queued entry. -/
  | vstop
  /-- VNOP (R192). Has no effect on any state. -/
  | vnop (ch : Bool)
  /-- VSIG (R415). Starts signature accumulation of a vector block, or does nothing with checking off. -/
  | vsig (sig : BitVec 16)
  /-- VPSN (R203). Writes each active element's poison into a mask bit. -/
  | vpsn (h : VHdr) (kd : KReg) (va : VReg)
  /-- VPCLR (R203). Clears the poison of each active element without changing values. -/
  | vpclr (h : VHdr) (vd : VReg)
  /-- MRING (R291). Joins a ring-wide round that passes each member's latch to the next member. -/
  | mring (sl : BitVec 1)
  /-- VADD (R211). Writes the wrapping integer sum of each active element pair. -/
  | vadd (h : VHdr) (vd va vb : VReg)
  /-- VADD_IMM (R206). Writes the wrapping integer sum of each active element and the immediate. -/
  | vaddImm (h : VHdr) (vd va : VReg) (imm : BitVec 16)
  /-- VSUB (R211). Writes the wrapping integer difference of each active element pair. -/
  | vsub (h : VHdr) (vd va vb : VReg)
  /-- VSUB_IMM (R206). Writes the wrapping difference of each active element and the immediate. -/
  | vsubImm (h : VHdr) (vd va : VReg) (imm : BitVec 16)
  /-- VADDS (R211). Writes the saturating integer sum of each active element pair. -/
  | vadds (h : VHdr) (vd va vb : VReg)
  /-- VADDS_IMM (R206). Writes the saturating sum of each active element and the immediate. -/
  | vaddsImm (h : VHdr) (vd va : VReg) (imm : BitVec 16)
  /-- VSUBS (R211). Writes the saturating integer difference of each active element pair. -/
  | vsubs (h : VHdr) (vd va vb : VReg)
  /-- VSUBS_IMM (R206). Writes the saturating difference of each active element and the immediate. -/
  | vsubsImm (h : VHdr) (vd va : VReg) (imm : BitVec 16)
  /-- VMUL (R211). Writes the low bits of each active element product. -/
  | vmul (h : VHdr) (vd va vb : VReg)
  /-- VMUL_IMM (R206). Writes the low bits of each active element times the immediate. -/
  | vmulImm (h : VHdr) (vd va : VReg) (imm : BitVec 16)
  /-- VMULH (R211). Writes the high bits of each active element product. -/
  | vmulh (h : VHdr) (vd va vb : VReg)
  /-- VMULH_IMM (R206). Writes the high bits of each active element times the immediate. -/
  | vmulhImm (h : VHdr) (vd va : VReg) (imm : BitVec 16)
  /-- VMAD (R211). Writes the low bits of a times b plus c for each active element. -/
  | vmad (h : VHdr) (vd va vb vc : VReg)
  /-- VMIN (R211). Writes the integer minimum of each active element pair. -/
  | vmin (h : VHdr) (vd va vb : VReg)
  /-- VMIN_IMM (R206). Writes the integer minimum of each active element and the immediate. -/
  | vminImm (h : VHdr) (vd va : VReg) (imm : BitVec 16)
  /-- VMAX (R211). Writes the integer maximum of each active element pair. -/
  | vmax (h : VHdr) (vd va vb : VReg)
  /-- VMAX_IMM (R206). Writes the integer maximum of each active element and the immediate. -/
  | vmaxImm (h : VHdr) (vd va : VReg) (imm : BitVec 16)
  /-- VAND (R211). Writes the bitwise AND of each active element pair. -/
  | vand (h : VHdr) (vd va vb : VReg)
  /-- VAND_IMM (R206). Writes the bitwise AND of each active element and the immediate. -/
  | vandImm (h : VHdr) (vd va : VReg) (imm : BitVec 16)
  /-- VOR (R211). Writes the bitwise OR of each active element pair. -/
  | vor (h : VHdr) (vd va vb : VReg)
  /-- VOR_IMM (R206). Writes the bitwise OR of each active element and the immediate. -/
  | vorImm (h : VHdr) (vd va : VReg) (imm : BitVec 16)
  /-- VXOR (R211). Writes the bitwise XOR of each active element pair. -/
  | vxor (h : VHdr) (vd va vb : VReg)
  /-- VXOR_IMM (R206). Writes the bitwise XOR of each active element and the immediate. -/
  | vxorImm (h : VHdr) (vd va : VReg) (imm : BitVec 16)
  /-- VSLL (R211). Shifts each active element left by the other operand. -/
  | vsll (h : VHdr) (vd va vb : VReg)
  /-- VSLL_IMM (R206). Shifts each active element left by the immediate. -/
  | vsllImm (h : VHdr) (vd va : VReg) (imm : BitVec 16)
  /-- VSRL (R211). Shifts each active element right logically by the other operand. -/
  | vsrl (h : VHdr) (vd va vb : VReg)
  /-- VSRL_IMM (R206). Shifts each active element right logically by the immediate. -/
  | vsrlImm (h : VHdr) (vd va : VReg) (imm : BitVec 16)
  /-- VSRA (R211). Shifts each active element right arithmetically by the other operand. -/
  | vsra (h : VHdr) (vd va vb : VReg)
  /-- VSRA_IMM (R206). Shifts each active element right arithmetically by the immediate. -/
  | vsraImm (h : VHdr) (vd va : VReg) (imm : BitVec 16)
  /-- VABS (R211). Writes the absolute value of each active integer element. -/
  | vabs (h : VHdr) (vd va : VReg)
  /-- VNEG (R211). Writes the negation of each active integer element. -/
  | vneg (h : VHdr) (vd va : VReg)
  /-- VFADD (R212). Writes the rounded floating sum of each active element pair. -/
  | vfadd (h : VHdr) (vd va vb : VReg)
  /-- VFSUB (R212). Writes the rounded floating difference of each active element pair. -/
  | vfsub (h : VHdr) (vd va vb : VReg)
  /-- VFMUL (R212). Writes the rounded class product of each active element pair. -/
  | vfmul (h : VHdr) (vd va vb : VReg)
  /-- VFMA (R212). Writes the class product plus the addend, rounded once, for each active element. -/
  | vfma (h : VHdr) (vd va vb vc : VReg)
  /-- VFNMA (R212). Writes the negated class product plus addend, rounded once, for each active element. -/
  | vfnma (h : VHdr) (vd va vb vc : VReg)
  /-- VFMIN (R212). Writes the floating minimum of each active element pair. -/
  | vfmin (h : VHdr) (vd va vb : VReg)
  /-- VFMAX (R212). Writes the floating maximum of each active element pair. -/
  | vfmax (h : VHdr) (vd va vb : VReg)
  /-- VFABS (R212). Clears the sign of each active floating element. -/
  | vfabs (h : VHdr) (vd va : VReg)
  /-- VFNEG (R212). Inverts the sign of each active floating element. -/
  | vfneg (h : VHdr) (vd va : VReg)
  /-- VFSCL (R213). Multiplies each active element by a power of two taken from vb as an integer or E8M0 scale. -/
  | vfscl (h : VHdr) (vd va vb : VReg) (form : Bool)
  /-- VFRCP (R106). Writes the reciprocal of each active element under EX or LG. -/
  | vfrcp (h : VHdr) (vd va : VReg)
  /-- VFRSQ (R106). Writes the reciprocal square root of each active element under EX or LG. -/
  | vfrsq (h : VHdr) (vd va : VReg)
  /-- VFEXP2 (R106). Writes 2 to the power of each active element under EX or LG. -/
  | vfexp2 (h : VHdr) (vd va : VReg)
  /-- VFLOG2 (R106). Writes the base-2 logarithm of each active element under EX or LG. -/
  | vflog2 (h : VHdr) (vd va : VReg)
  /-- VCVT (R214). Converts each active element between two element types under the rounding mode. -/
  | vcvt (h : VHdr) (vd va : VReg) (src : ETy) (sat : Bool) (rm : RMode)
  /-- VCVTX (R217). Expands packed 4-bit codes to FP8 through the latched expansion table. -/
  | vcvtx (h : VHdr) (vd va : VReg)
  /-- VMXUP (R219). Expands MXFP4 blocks into FP16, BF16 or FP32 elements. -/
  | vmxup (h : VHdr) (vd va : VReg) (rm : RMode)
  /-- VMXPK (R220). Packs floating elements into MXFP4 blocks, choosing each block's scale. -/
  | vmxpk (h : VHdr) (vd va : VReg) (src : ETy) (rm : RMode)
  /-- VCMP (R221). Writes an integer comparison of each active element pair into a mask. -/
  | vcmp (h : VHdr) (kd : KReg) (va vb : VReg) (cond : Cond)
  /-- VFCMP (R221). Writes a floating comparison of each active element pair into a mask. -/
  | vfcmp (h : VHdr) (kd : KReg) (va vb : VReg) (cond : Cond)
  /-- VWHILE (R222). Writes the loop-bound mask i + e < n for each active element. -/
  | vwhile (h : VHdr) (kd : KReg) (gi gn : GReg) (uns : Bool)
  /-- KAND (R223). Writes the AND of two masks. -/
  | kand (h : VHdr) (kd ka kb : KReg)
  /-- KOR (R223). Writes the OR of two masks. -/
  | kor (h : VHdr) (kd ka kb : KReg)
  /-- KXOR (R223). Writes the XOR of two masks. -/
  | kxor (h : VHdr) (kd ka kb : KReg)
  /-- KANDN (R223). Writes a mask AND NOT another. -/
  | kandn (h : VHdr) (kd ka kb : KReg)
  /-- KNOT (R223). Writes the complement of a mask. -/
  | knot (h : VHdr) (kd ka : KReg)
  /-- KMOV (R223). Copies a mask. -/
  | kmov (h : VHdr) (kd ka : KReg)
  /-- KPOP (R224). Writes the count of active set mask bits to a general register at retirement. -/
  | kpop (h : VHdr) (gd : GReg) (ka : KReg)
  /-- KFIRST (R224). Writes the index of the first active set mask bit to a general register at retirement. -/
  | kfirst (h : VHdr) (gd : GReg) (ka : KReg)
  /-- VMXV (R225). Writes a mask bit marking each active MXFP4 element's block valid. -/
  | vmxv (h : VHdr) (kd : KReg) (va : VReg)
  /-- VMOV (R227). Copies each active unit. -/
  | vmov (h : VHdr) (vd va : VReg)
  /-- VBCAST (R227). Writes a general register's value into each active element. -/
  | vbcast (h : VHdr) (vd : VReg) (ga : GReg)
  /-- VBCASTB (R227). Broadcasts each source element into a block of 2^k destination elements. -/
  | vbcastb (h : VHdr) (vd va : VReg) (src : ETy) (log2B : BitVec 5)
  /-- VGATHR (R228). Gathers units of va by indices held in vb. -/
  | vgathr (h : VHdr) (vd va vb : VReg)
  /-- VPERM (R228). Permutes units within each canonical group, or within a row for MXFP4. -/
  | vperm (h : VHdr) (vd va vb : VReg)
  /-- VSLDU (R229). Slides units up by n, filling from vb. -/
  | vsldu (h : VHdr) (vd va vb : VReg) (n : BitVec 16)
  /-- VSLDD (R229). Slides units down by n, filling from vb. -/
  | vsldd (h : VHdr) (vd va vb : VReg) (n : BitVec 16)
  /-- VCMPR (R230). Compresses the active units to the front of the destination. -/
  | vcmpr (h : VHdr) (vd va : VReg)
  /-- VEXPD (R230). Expands consecutive source units into the active destination units. -/
  | vexpd (h : VHdr) (vd va : VReg)
  /-- VIOTA (R230). Writes each active element's index or its count of earlier active elements. -/
  | viota (h : VHdr) (vd : VReg) (form : Bool)
  /-- VEXT (R231). Extracts one element into a general register, trapping if it is poisoned. -/
  | vext (ch : Bool) (et : ETy) (gd : GReg) (va : VReg) (gi : GReg)
  /-- VINS (R231). Inserts a general register's value into one element. -/
  | vins (ch : Bool) (et : ETy) (vd : VReg) (ga gi : GReg)
  /-- VRSUM (R233). Writes the integer sum of the active elements to element 0. -/
  | vrsum (h : VHdr) (vd va : VReg)
  /-- VRMAX (R233). Writes the integer maximum of the active elements to element 0. -/
  | vrmax (h : VHdr) (vd va : VReg)
  /-- VRMIN (R233). Writes the integer minimum of the active elements to element 0. -/
  | vrmin (h : VHdr) (vd va : VReg)
  /-- VSCAN (R234). Writes the inclusive integer scan at each active element. -/
  | vscan (h : VHdr) (vd va : VReg) (op : ScanOp)
  /-- VFRSUM (R233). Writes the canonically ordered floating sum of the active elements to element 0. -/
  | vfrsum (h : VHdr) (vd va : VReg)
  /-- VFRMAX (R233). Writes the floating maximum of the active elements to element 0. -/
  | vfrmax (h : VHdr) (vd va : VReg)
  /-- VFRMIN (R233). Writes the floating minimum of the active elements to element 0. -/
  | vfrmin (h : VHdr) (vd va : VReg)
  /-- VFSCAN (R234). Writes the inclusive floating scan at each active element in canonical order. -/
  | vfscan (h : VHdr) (vd va : VReg) (op : ScanOp)
  /-- VLD (R262). Loads each active unit from a unit-stride address. -/
  | vld (h : VHdr) (ord : Ord) (vd : VReg) (vb : GReg) (disp : BitVec 16)
  /-- VST (R263). Stores each active unit to a unit-stride address. -/
  | vst (h : VHdr) (ord : Ord) (vd : VReg) (vb : GReg) (disp : BitVec 16)
  /-- VLDS (R262). Loads each active unit from a strided address. -/
  | vlds (h : VHdr) (ord : Ord) (vd : VReg) (vb vc : GReg) (disp : BitVec 16)
  /-- VSTS (R263). Stores each active unit to a strided address. -/
  | vsts (h : VHdr) (ord : Ord) (vd : VReg) (vb vc : GReg) (disp : BitVec 16)
  /-- VLDX (R262). Loads each active unit from an indexed address. -/
  | vldx (h : VHdr) (ord : Ord) (iw : IdxW) (vd va : VReg) (vb : GReg) (disp : BitVec 16)
  /-- VSTX (R263). Stores each active unit to an indexed address. -/
  | vstx (h : VHdr) (ord : Ord) (iw : IdxW) (vd va : VReg) (vb : GReg) (disp : BitVec 16)
  /-- VLDFF (R268). Loads unit-stride units up to the first fault, suppressing later faults and setting FFE. -/
  | vldff (h : VHdr) (ord : Ord) (vd : VReg) (vb : GReg) (disp : BitVec 16)
  /-- VLDFF_STRIDED (R268). Loads strided units up to the first fault and sets FFE. -/
  | vldffStrided (h : VHdr) (ord : Ord) (vd : VReg) (vb vc : GReg) (disp : BitVec 16)
  /-- VLDFF_INDEXED (R268). Loads indexed units up to the first fault and sets FFE. -/
  | vldffIndexed (h : VHdr) (ord : Ord) (iw : IdxW) (vd va : VReg) (vb : GReg) (disp : BitVec 16)
  /-- VAMO (R323). Performs an atomic operation at each active unit's indexed address, units unordered. -/
  | vamo (h : VHdr) (ord : Ord) (op : AOp) (iw : IdxW) (ret : Bool) (vd va : VReg) (vb : GReg) (vc : VReg)
  /-- VAMOO (R324). Performs indexed atomic operations in unit order. -/
  | vamoo (h : VHdr) (ord : Ord) (op : AOp) (iw : IdxW) (ret : Bool) (vd va : VReg) (vb : GReg) (vc : VReg)
  /-- VLDGL (R325). Loads each active indexed unit and enters a link on its line. -/
  | vldgl (h : VHdr) (ord : Ord) (iw : IdxW) (vd va : VReg) (vb : GReg)
  /-- VSTSC (R325). Stores each active indexed unit only where the process holds a link, writing success bits to a mask. -/
  | vstsc (h : VHdr) (ord : Ord) (iw : IdxW) (kd : KReg) (vd va : VReg) (vb : GReg)
  /-- VSADD (R326). Adds each active unit into memory at its indexed address at the server. -/
  | vsadd (h : VHdr) (ord : Ord) (iw : IdxW) (vd va : VReg) (vb : GReg)
  /-- MZERO (R285). Sets every element of an accumulator tile to zero with poison clear. -/
  | mzero (ch : Bool) (acc : BitVec 2)
  /-- MOPA (R283). Accumulates the outer products of A in a register and B in a span latch into an accumulator tile. -/
  | mopa (h : VHdr) (acc : BitVec 2) (va : VReg) (sl : BitVec 1)
  /-- MOPS (R283). Subtracts the outer products of A and B from an accumulator tile. -/
  | mops (h : VHdr) (acc : BitVec 2) (va : VReg) (sl : BitVec 1)
  /-- MREAD (R287). Converts accumulator rows into a vector register. -/
  | mread (h : VHdr) (acc : BitVec 2) (va : VReg) (m0 : BitVec 6) (rm : RMode)
  /-- MWRITE (R287). Writes a vector register into accumulator rows. -/
  | mwrite (h : VHdr) (acc : BitVec 2) (va : VReg) (m0 : BitVec 6)
  /-- MSAVE_ACC (R289). Writes an accumulator tile to memory in the W56 layout. -/
  | msaveAcc (ch : Bool) (ord : Ord) (acc : BitVec 2) (vc : GReg) (disp : BitVec 16)
  /-- MSAVE_LATCH (R289). Writes a span latch image, optionally with its scale side, to memory. -/
  | msaveLatch (ch : Bool) (ord : Ord) (sl : BitVec 1) (scale : Bool) (vc : GReg) (disp : BitVec 16)
  /-- MLOAD_ACC (R289). Reads an accumulator tile from memory. -/
  | mloadAcc (ch : Bool) (ord : Ord) (acc : BitVec 2) (vc : GReg) (disp : BitVec 16)
  /-- MLOAD_LATCH (R289). Reads a span latch image, optionally with its scale side, from memory. -/
  | mloadLatch (ch : Bool) (ord : Ord) (sl : BitVec 1) (scale : Bool) (vc : GReg) (disp : BitVec 16)
  /-- VSEND (R168). Sends the live chunks of a register as wide tokens, group by group. -/
  | vsend (h : VHdr) (va : VReg) (q : Port) (tag : BitVec 7)
  /-- VRECV (R168). Receives wide tokens into the live chunks of a register, group by group. -/
  | vrecv (h : VHdr) (vd : VReg) (q : Port)
  /-- CONVOY_START (R197). The sequencer starts the ready convoy of highest effective priority and streams its members. -/
  | convoyStart (tile : Nat)
  /-- CONVOY_RETIRE (R190). A convoy retires after its last write, writing pending general registers and FFE. -/
  | convoyRetire (pid cid : Nat)
  /-- VECTOR_MEMORY_REPLY (R265). Replies for a device-memory vector access complete a group, which is written, and the convoy re-enters arbitration. -/
  | vectorMemoryReply (pid cid : Nat)
  /-- MATRIX_MEMBER_START (R279). The matrix unit starts the next member of its oldest queued convoy. -/
  | matrixMemberStart (tile : Nat)
  /-- MATRIX_CONVOY_RETIRE (R279). A matrix convoy retires after its last member's last write. -/
  | matrixConvoyRetire (tile : Nat)
  /-- MRING_ROUND_BEGIN (R292). Once every member is ready, the ring round begins LEN cycles later and rows start moving. -/
  | mringRoundBegin (ring : Nat) (sl : BitVec 1)
  /-- MRING_ROUND_END (R292). A member's MRING retires when its last latch row has arrived. -/
  | mringRoundEnd (pid : Nat) (sl : BitVec 1)
  /-- LOOP_REGISTER (R357). The vector unit reaches a loop entry, checks the body and registers and possibly captures the task. -/
  | loopRegister (pid : Nat)
  /-- ITERATION_START (R358). An iteration becomes ready when the prior one retired and its WAIT bits are consumed, and runs the body. -/
  | iterationStart (pid task : Nat)
  /-- ITERATION_RETIRE (R358). An iteration retires, letting its strips be released and setting its SET bits; the last completes the task. -/
  | iterationRetire (pid task : Nat)
  /-- PARKED_WAKE (R114). A parked process whose wait condition is met becomes Ready two cycles later and completes its parked instruction. -/
  | parkedWake (pid : Nat)
  /-- MEMORY_REPLY (R114). A server's reply or acknowledgement reaches the tile, meeting a memory-reply park or trapping it on error. -/
  | memoryReply (pid : Nat)
  /-- TOKEN_LAUNCH (R165). A sent token is launched once the process's earlier scratchpad stores have left their FIFOs. -/
  | tokenLaunch (pid : Nat)
  /-- TOKEN_ARRIVAL (R156). A token is written into the consumer's port buffer, or spill when the buffer is full. -/
  | tokenArrival (chan prod : Nat)
  /-- CREDIT_ARRIVAL (R155). A returned credit reaches the producer port. -/
  | creditArrival (chan prod : Nat)
  /-- SPILL_REFILL (R179). A freed on-tile slot is refilled from the oldest spilled token. -/
  | spillRefill (chan : Nat)
  /-- CUE_FRAME_BOUNDARY (R389). At each cue-frame boundary reservation budgets restart and pending reservations take effect. -/
  | cueFrameBoundary
  /-- INHERITANCE_FLIT_ARRIVAL (R174). An inheritance control flit arrives over a Viaduct circuit to take effect at the next frame boundary. -/
  | inheritanceFlitArrival (chan : Nat) (prio : BitVec 3)
  /-- STAGE_SNAPSHOT (R176). Every 16 cue frames the stage manager latches park states and channel counters and classifies each connected set. -/
  | stageSnapshot
  /-- SNAPSHOT_DATA_ARRIVAL (R177). Another package's snapshot data for a connected set arrives over Viaduct. -/
  | snapshotDataArrival (chan : Nat) (far : FarEnd)
  /-- GROWTH_CREDIT_ARRIVAL (R178). Credits granted by spill growth reach a producer. -/
  | growthCreditArrival (chan prod : Nat)
  /-- CUE_SLOT_FIRE (R384). An armed cue slot fires when the cue clock reaches its time, performing SEND, KICK or WAKE. -/
  | cueSlotFire (pid : Nat) (slot : BitVec 2)
  /-- SPAD_STORE_GRANT (R246). The head entry of a slice store FIFO is granted its bank write and leaves the FIFO. -/
  | spadStoreGrant (tile : Nat) (pid : Nat) (slice : BitVec 2)
  /-- PARITY_UPDATE (R244). A stale-row entry's delta is applied to the understudy row and leaves the table. -/
  | parityUpdate (tile : Nat) (slice : BitVec 2)
  /-- ERROR_RECONSTRUCTION (R249). An uncorrectable word is rebuilt from the row's other banks after the row's stale entries drain. -/
  | errorReconstruction (tile : Nat) (word : Nat)
  /-- SWEEP_STEP (R252). One row of the retired bank is rebuilt into the understudy. -/
  | sweepStep (tile : Nat) (slice : BitVec 2)
  /-- SWEEP_PROMOTE (R253). A sweep step that has waited 14 cycles is raised to arbitration rule 2. -/
  | sweepPromote (tile : Nat) (slice : BitVec 2)
  /-- SERVER_ACCESS (R298). A memory server performs a queued line request at one instant and replies. -/
  | serverAccess (server : Nat)
  /-- REFRESH_SCRUB (R304). The server refreshes an HBM row and scrubs one column of it. -/
  | refreshScrub (server row : Nat)
  /-- WALK (R314). A free walk unit takes a pending walk and reads page-table entries. -/
  | walk (die : Nat)
  /-- WALK_COMPLETE (R314). A walk returns its leaf or fault to every waiting tile, filling TLBs. -/
  | walkComplete (die : Nat)
  /-- BOX_OFFICE_QUERY (R328). A box office answers a query with the next ticket or end of work. -/
  | boxOfficeQuery (office : Nat)
  /-- DISPQ_ANSWER (R330). An answer reaches the tile, is written to scratchpad and then sets the event bit. -/
  | dispqAnswer (pid : Nat)
  /-- ENGINE_TRANSFER (R343). An engine hart starts a kicked transfer, acquiring its kick word. -/
  | engineTransfer (pid : Nat) (stream : BitVec 3)
  /-- STRIP_FILL (R340). A load strip's elements all arrive in its group and the strip becomes available. -/
  | stripFill (pid : Nat) (stream : BitVec 3)
  /-- STRIP_RELEASE (R340). A stepped strip is released once every block recording it retires, triggering refill or write-back. -/
  | stripRelease (pid : Nat) (stream : BitVec 3)
  /-- STRIP_WRITEBACK (R340). A released store strip is written to memory and its group handed back zeroed. -/
  | stripWriteback (pid : Nat) (stream : BitVec 3)
  /-- TRANSFER_COMPLETE (R342). A transfer completes and its mailbox store advances the watermark and sets DBIT. -/
  | transferComplete (pid : Nat) (stream : BitVec 3)
  /-- TRANSFER_FAULT (R344). A failing element faults the transfer, marks the watermark and delivers a fault notice. -/
  | transferFault (pid : Nat) (stream : BitVec 3)
  /-- FAULT_RECORD_DELIVER (R403). Queued fault records are delivered in order as the fault channel gains credits. -/
  | faultRecordDeliver (tenant : Nat)
  /-- FLIT_ARRIVAL (R422). A Viaduct flit arrives and is checked, a bad one being replayed from the sender. -/
  | flitArrival (port : Nat) (flit : Flit)
  /-- PORT_DOWN (R422). A port whose replay fails for 1 ms is declared down and its packets resent on other ports. -/
  | portDown (port : Nat)
  /-- BULK_BLOCK_ARRIVAL (R424). A bulk block arrives, is CRC checked and written, or NAKed for resending; `key` is the registration that the far end's SNAPSHOT named. -/
  | bulkBlockArrival (port : Nat) (key : BitVec 12) (blk : BulkBlock)
  /-- CIRCUIT_TOKEN_ARRIVAL (R425). A circuit token packet arrives and is written in sequence order, or NAKed if stale. -/
  | circuitTokenArrival (pkt : CircToken)
  /-- CIRCUIT_CREDIT_ARRIVAL (R425). A credit packet of a circuit arrives and is applied in sequence order. -/
  | circuitCreditArrival (pkt : CircCredit)
  /-- REMOTE_REQUEST (R427). A remote line request arrives at the target and is checked, performed or NAKed. -/
  | remoteRequest (req : RemReq)
  /-- REMOTE_REPLY (R427). A remote reply or NAK reaches the requester and is taken as a reply or reply error. -/
  | remoteReply (id : Nat) (rep : RemRep)
  /-- RETRY_RESEND (R430). A request NAKed retry is resent every 4 µs, failing with 0x27 after 16 retries. -/
  | retryResend (id : Nat)
  /-- CONTEXT_FILL (R430). A spilled connection context is brought back into the context cache. -/
  | contextFill (ctx : Nat)
  /-- UNREACHABLE_TIMEOUT (R427). A package unreachable for 200 µs fails the request with cause 0x90. -/
  | unreachableTimeout (id : Nat)
  /-- REVOKE_COMPLETE (R429). A revoke completes and replies once every request accepted before it is performed. -/
  | revokeComplete (key : BitVec 12)
  /-- TRANSFER_FIRE (R435). A posted transfer fires on its trigger, translates DST and its relay engine sends the packets. -/
  | transferFire (pid : Nat) (q : BitVec 2)
  /-- XPOST_PACKET_ACK (R435). A transfer packet is acknowledged or NAKed, completing or faulting the post and advancing DONE. -/
  | xpostPacketAck (pid : Nat) (q : BitVec 2) (ack : PktAck)
  /-- MESSAGE_PACKET_ARRIVAL (R436). A message packet is written at its offset and the last one raises ARRIVED. -/
  | messagePacketArrival (pkt : MsgPkt)
  /-- COLLECTIVE_START (R440). A relay engine starts a collective, exchanging digests with its neighbours. -/
  | collectiveStart (pid : Nat)
  /-- DIGEST_EXCHANGE (R438). A neighbour's digest arrives and is compared, failing the collective on a difference. -/
  | digestExchange (pid : Nat) (msg : DigestMsg)
  /-- COLL_FAILURE_MARKER (R438). A failure marker for a collective arrives, with the cause at the package that sent it, and fails it. -/
  | collFailureMarker (pid : Nat) (n : Nat) (cause : Byte)
  /-- RELAY_CHUNK (R440). A relay engine receives a chunk from its neighbour, combines and forwards or writes it. -/
  | relayChunk (pid : Nat) (msg : ChunkMsg)
  /-- COLLECTIVE_COMPLETE (R440). Every write of the collective is performed and COLL rises as a release. -/
  | collectiveComplete (pid : Nat)
  /-- INLET_WRITE (R444). A host write to an inlet entry places a token, or is discarded and counted and noticed. -/
  | inletWrite (fn : Nat) (off : Nat) (bytes : List Byte) (poison : Bool)
  /-- OUTLET_READ (R445). A host read of an outlet entry returns and consumes one token, or zero when empty. -/
  | outletRead (fn : Nat) (off len : Nat)
  /-- WINDOW_READ (R447). A BAR2 read is translated and performed as reads of the function. -/
  | windowRead (fn : Nat) (off len : Nat)
  /-- WINDOW_WRITE (R447). A BAR2 write is translated and performed as writes of the function. -/
  | windowWrite (fn : Nat) (off : Nat) (bytes : List Byte) (poison : Bool)
  /-- MSIX_TABLE_WRITE (R442). A host writes the MSI-X table or another BAR0 location with no behaviour of its own. -/
  | msixTableWrite (fn : Nat) (off : Nat) (bytes : List Byte)
  /-- TENANT_CREATE (R453). Creates a tenant bound to a function with the given quotas. -/
  | tenantCreate (fn : Nat)
  /-- TENANT_QUOTA (R452). Changes a tenant's quotas. -/
  | tenantQuota (fn : Nat)
  /-- TENANT_DESTROY (R452). Kills every network of a tenant, revokes its registrations, frees its pages and unbinds its function. -/
  | tenantDestroy (fn : Nat)
  /-- TOPO_SET (R423). Sets the route table entry of a package. -/
  | topoSet (fn : Nat)
  /-- CUE_SYNC (R378). Slews the cue clock toward a reference package. -/
  | cueSync (fn : Nat)
  /-- HEALTH_READ_CEC (R251). Returns a scratchpad bank's correctable-error count. -/
  | healthReadCec (fn : Nat)
  /-- HEALTH_READ_SERVER (R305). Returns a server's correctable and uncorrectable counts. -/
  | healthReadServer (fn : Nat)
  /-- HEALTH_SET_THRESHOLD (R251). Sets a bank's retirement threshold. -/
  | healthSetThreshold (fn : Nat)
  /-- HEALTH_CLEAR (R251). Clears every error count. -/
  | healthClear (fn : Nat)
  /-- BANK_RETIRE (R252). Retires a scratchpad bank, optionally fusing it, starting a sweep or degrading or failing the slice. -/
  | bankRetire (fn : Nat)
  /-- SNAPSHOT (R454). Holds every network and copies all device memory to a remote registration over reserved ports. -/
  | snapshot (fn : Nat)
  /-- MODULE_RESET (R457). Resets the whole module, losing every tenant, and reruns boot. -/
  | moduleReset (fn : Nat)
  /-- ATTEST (R456). Writes a signed attestation report with the HSS signature and public key. -/
  | attest (fn : Nat)
  /-- NET_CREATE (R34). Checks an image, places its processes, binds channels, loads sections and creates the network Dormant. -/
  | netCreate (fn : Nat)
  /-- NET_START (R38). Sets box-office counts and starts every Dormant process Ready. -/
  | netStart (fn : Nat)
  /-- NET_KILL (R453). Retires every process, sends the completion report and removes the network. -/
  | netKill (fn : Nat)
  /-- NET_HOLD (R453). Holds a Running network so no process issues. -/
  | netHold (fn : Nat)
  /-- NET_PREEMPT (R411). Captures named processes now or arms a cue deadline for the capture. -/
  | netPreempt (fn : Nat)
  /-- CUE_DEADLINE_CAPTURE (R411). At an armed cue deadline the Prompter captures the named processes. -/
  | cueDeadlineCapture (net : Nat)
  /-- NET_RESUME (R412). Places and restores pre-empted, held or trapped processes and resumes them. -/
  | netResume (fn : Nat)
  /-- NET_STATUS (R453). Returns a process's state, park reason, placement and cause and the network's state and queue handles. -/
  | netStatus (fn : Nat)
  /-- CHAN_REBIND (R162). Moves a pre-empted process's channel ends to another tile or package. -/
  | chanRebind (fn : Nat)
  /-- CHAN_HOST (R446). Binds a process port to a host-end slot of a Created network. -/
  | chanHost (fn : Nat)
  /-- RESV_SERVER (R301). Sets a process's memory-server reservation units. -/
  | resvServer (fn : Nat)
  /-- MAP_ALLOC (R453). Allocates and maps a zeroed page in the tenant's page table. -/
  | mapAlloc (fn : Nat)
  /-- MAP_FREE (R453). Unmaps and frees a page after emptying TLB entries for it. -/
  | mapFree (fn : Nat)
  /-- MAP_REMOTE (R311). Maps a remote leaf naming a package, registration key and offset. -/
  | mapRemote (fn : Nat)
  /-- MAP_SYNC (R315). Empties the tenant's TLB and walk-cache entries and replies when old translations are done. -/
  | mapSync (fn : Nat)
  /-- REG_CREATE (R426). Creates a registration of a virtual range for remote access. -/
  | regCreate (fn : Nat)
  /-- REG_REVOKE (R429). Makes a registration revoking so arriving requests are NAKed. -/
  | regRevoke (fn : Nat)
  /-- REG_IMPORT (R427). Imports a remote registration, recording its current generation. -/
  | regImport (fn : Nat)
  /-- WINDOW_SET (R447). Sets the base of the function's memory window. -/
  | windowSet (fn : Nat)
  /-- COLL_BIND (R438). Declares the network's collective group on this package. -/
  | collBind (fn : Nat)
  /-- POWER_GOOD (R455). Power good starts boot: fuses, HBM training, clearing, Viaduct training, key generation and PCIe bring-up. -/
  | powerGood
  /-- POWER_LOSS (R4). Loss of module power loses every state except the fuses. -/
  | powerLoss
  /-- PORT_A_RESET (R457). PERST# or a hot reset on port A resets the whole module. -/
  | portAReset
  /-- PORT_B_RESET (R457). PERST# or a hot reset on port B resets every function of port B. -/
  | portBReset
  /-- FUNCTION_RESET (R457). An FLR empties the function's channels, clears its window and holds the tenant's networks with a 0xC0 notice. -/
  | functionReset (fn : Nat)
  /-- THERMAL_HOT (R458). At 105 °C junction FSTAT.HOT is set. -/
  | thermalHot
  /-- THERMAL_HOLD (R458). At 115 °C every network is held. -/
  | thermalHold
  /-- THERMAL_RESUME (R458). Below 100 °C the thermally held networks resume. -/
  | thermalResume
  /-- THERMAL_SHUTDOWN (R458). At 125 °C hardware removes module power. -/
  | thermalShutdown
  /-- SCRATCHPAD_LOAD_GRANT (R242). A parked scalar scratchpad load is granted its bank in cycle w, is performed then, and its condition is met at w + 3. -/
  | scratchpadLoadGrant (pid : Nat)
  /-- CONTEXT_SPILL (R430). An unpinned connection context is written out of the I/O die's context cache to its reserved spill area in HBM. -/
  | contextSpill (ctx : Nat)
  /-- CONFIGURATION_REQUEST (R455). A PCIe configuration request arrives at a function and, before boot has finished, is answered with Configuration Request Retry Status. -/
  | configurationRequest (fn : Nat)  deriving DecidableEq, Repr

end Sys2Proof
end

