-- ==== Sys2Proof/Config.lean ====
section
/-!
DEFINITION. What an implementation fixes, and the free values: constants without a body, so that no proof can
know what they are. Each is named in an assumption log entry.
-/

namespace Sys2Proof.Config

/-- ROMID of parts of this release (R51). -/
def romId : BitVec 16 := 0x0102

/-- The instruction set revision XZ1 (R51). -/
def isaRev : BitVec 8 := 0x01

/-- Installed device memory in bytes (R296). -/
def memBytes : Nat := 512000000000

/-- FREE: the choice among `n` possibilities that the spec leaves to timing or to the Prompter; draw, then n. -/
opaque choice : Nat → Nat → Nat

/-- FREE: the hash that gives a pair of source and destination its mesh plane, whose form the spec does not state (R11)
(DESIGN CHOICE, log 89). -/
opaque planeHash : Nat → Nat → Nat

/-- FREE: reads a process has lost in a relative bank when a convoy retires (R199, R421): draw and bank (DESIGN
CHOICE, log 21). -/
opaque bankLosses : Nat → Nat → BitVec 32

/-- FREE: the data of a word that a failed slice returns poisoned (R256): draw and word (DESIGN CHOICE, log 22). -/
opaque failedWord : Nat → Nat → BitVec 64

/-- FREE: the flit and bulk-block CRC-32, whose polynomial the spec does not state (R422, R424)
(DESIGN CHOICE, log 23). -/
opaque linkCrc : List Byte → BitVec 32

/-- FREE: the payload flits that follow a header flit, modulo 9 (R423); the spec states no layout of a packet
(DESIGN CHOICE, log 90). -/
opaque packetFlits : List Byte → Nat

/-- FREE: the arrival that the bytes of a whole packet mean (R423) (DESIGN CHOICE, log 90). -/
opaque packetEvent : List Byte → Option Instr

/-- FREE: the I/O die whose context cache holds a context, modulo 2 (R430) (DESIGN CHOICE, log 91). -/
opaque contextDie : Nat → Nat

/-- FREE: the relay engine of the package's eight, modulo 8, that serves a transfer queue's or a process's work (R3, R439),
by process and queue (DESIGN CHOICE, log 91). -/
opaque relayEngine : Nat → Nat → Nat

/-- FREE: the HSS signature of a report, by boot count, index of the signature and report (R456) (DESIGN CHOICE,
log 24). -/
opaque hssByte : Nat → Nat → List Byte → Nat → Byte

/-- FREE: the HSS public key, fixed by the fused seed (R456) (DESIGN CHOICE, log 24). -/
opaque hssKeyByte : Nat → Byte

/-- FREE: the device serial number (R456). -/
opaque serial : BitVec 64

/-- FREE: the repair and configuration fuses, whose digest an attestation carries (R456), by the banks fused. -/
opaque fuseImage : List Nat → List Byte

/-- FREE: virtual functions the SR-IOV capability of a port enables, by port and draw (R453) (DESIGN CHOICE, log 25). -/
opaque virtualFunctions : Nat → Nat

/-- FREE: the generation another package's registration has when it is imported (R427), by 4096 times its package plus
its KEY, and draw (DESIGN CHOICE, log 25). -/
opaque remoteGen : Nat → Nat → BitVec 12

end Sys2Proof.Config
end

