-- ==== Sys2Proof/WellFormed.lean ====
section
/-!
DEFINITION. Which terms of `Instr` are instructions of XZ1: the operand values an encoding admits
(R55-R68, R205-R231, R260, R281-R290, R320-R321) and, for events and commands, the units that exist (R1-R6).
-/

namespace Sys2Proof

/-- The sets of types of R210. -/
def tyInt : List ETy := [.i8, .i16, .i32, .i64, .u8, .u16, .u32, .u64]
/-- FP16, BF16 and FP32 (R210). -/
def tyFlt : List ETy := [.f16, .bf16, .f32]
/-- Codes 0 to 12 (R210). -/
def tyAll : List ETy := tyInt ++ tyFlt ++ [.e4m3, .e5m2]
/-- Codes 0 to 13 (R210). -/
def tyMx : List ETy := tyAll ++ [.mx4]
/-- The types of VAMO, VAMOO and VSADD (R320). -/
def tyAmo : List ETy := [.i32, .i64, .u32, .u64, .f32]
/-- The types of MOPA and MOPS (R281). -/
def tyMop : List ETy := [.i8, .f16, .bf16, .e4m3, .e5m2, .mx4]
/-- The types of MREAD and MWRITE (R286). -/
def tyMrd : List ETy := [.i32, .bf16, .f32, .w56]

/-- A header an instruction with these types and classes accepts (R56, R58, R65). -/
def VHdr.wf (h : VHdr) (types : List ETy) (classes : List ACls := [.ex]) : Bool :=
  decide (h.km.toNat < 24) && !(h.kn && h.km == 0) && types.contains h.et && classes.contains h.cls

/-- A mask field that names k0 to k23 (R56). -/
def KReg.wf (k : KReg) : Bool := decide (k.toNat < 24)

/-- A vector field that takes no stream head (R68). -/
def VReg.noHead (v : VReg) : Bool := decide (v.toNat < 24)

/-- Conversions whose every result is exact, so that the rounding mode must be 0 (R215). -/
def exactPair (src dst : ETy) : Bool :=
  (tyInt.contains src && tyInt.contains dst) ||
  (dst == .f32 && [ETy.f16, .bf16, .e4m3, .e5m2].contains src) ||
  ((dst == .f16 || dst == .bf16) && [ETy.e4m3, .e5m2].contains src) ||
  ([ETy.i8, .u8].contains src && tyFlt.contains dst) ||
  ([ETy.i16, .u16].contains src && dst == .f32) ||
  src == dst

/-- Control register indices of R139 that CTLR and CTLW reach with no behaviour of their own. -/
def ctlPlain (x : BitVec 12) : Bool :=
  [0x000, 0x001, 0x002, 0x003, 0x004, 0x010, 0x011, 0x012, 0x013, 0x014, 0x020, 0x023, 0x024, 0x025,
    0x030, 0x031, 0x032, 0x038, 0x039, 0x03A, 0x03B, 0x03C, 0x03D, 0x03E, 0x03F, 0x040, 0x041,
    0x050, 0x051, 0x052, 0x053].contains x.toNat

/-- The indices CTLW reaches with no behaviour of their own: the read-only registers of R139. -/
def ctlReadOnly (x : BitVec 12) : Bool :=
  [0x000, 0x001, 0x002, 0x003, 0x004, 0x010, 0x011, 0x012, 0x013, 0x014, 0x020, 0x031, 0x032,
    0x040, 0x041, 0x050, 0x051, 0x052, 0x053].contains x.toNat

/-- The three registers of MSETL differ, except that g0 may be repeated (R276). -/
def msetlRegs (a b c : GReg) : Bool :=
  (a == 0 || (a != b && a != c)) && (b == 0 || b != c)

/-- VAMO and VAMOO: CAS returns its old value, an operation that returns none holds vd zero, and `.f32`
takes ADD, MIN, MAX, SWAP and CAS only (R321). -/
def amoForm (h : VHdr) (op : AOp) (ret : Bool) (vd : VReg) : Bool :=
  (op != .cas || ret) && (ret || vd == 0) &&
    (h.et != .f32 || [AOp.add, .min, .max, .swap, .cas].contains op)

/-- The well-formed instructions, events and commands. -/
def Instr.wf : Instr → Bool
  | .msetl a b c => msetlRegs a b c
  | .sendc _ _ tag => decide (1 ≤ tag.toNat) && decide (tag.toNat < 128)
  | .vconf _ n b => decide (n.toNat ≤ 6) && decide (b.toNat ≤ 8)
  | .sstep mask => mask != 0
  | .ctlr _ x => ctlPlain x
  | .ctlw _ x => ctlReadOnly x
  | .vpsn h kd _ => h.wf tyMx && KReg.wf kd
  | .vpclr h vd => h.wf tyMx && VReg.noHead vd
  | .vadd h .. | .vsub h .. | .vadds h .. | .vsubs h .. | .vmul h .. | .vmulh h ..
  | .vmin h .. | .vmax h .. | .vand h .. | .vor h .. | .vxor h .. | .vsll h .. | .vsrl h .. | .vsra h ..
  | .vaddImm h .. | .vsubImm h .. | .vaddsImm h .. | .vsubsImm h .. | .vmulImm h .. | .vmulhImm h ..
  | .vminImm h .. | .vmaxImm h .. | .vandImm h .. | .vorImm h .. | .vxorImm h ..
  | .vsllImm h .. | .vsrlImm h .. | .vsraImm h ..
  | .vmad h .. | .vabs h .. | .vneg h .. => h.wf tyInt
  | .vfadd h .. | .vfsub h .. | .vfmin h .. | .vfmax h .. | .vfabs h .. | .vfneg h .. | .vfscl h .. =>
      h.wf tyFlt
  | .vfmul h .. | .vfma h .. | .vfnma h .. => h.wf tyFlt [.ex, .tp, .lg]
  | .vfrcp h .. | .vfrsq h .. | .vfexp2 h .. | .vflog2 h .. => h.wf tyFlt [.ex, .lg]
  | .vcvt h _ _ src sat rm =>
      h.wf tyAll && tyAll.contains src && (!sat || h.et == .e4m3) && (rm == .rne || !exactPair src h.et)
  | .vcvtx h .. => h.wf [.e4m3, .e5m2]
  | .vmxup h .. => h.wf tyFlt
  | .vmxpk h _ _ src _ => h.wf [.mx4] && tyFlt.contains src
  | .vcmp h kd _ _ cond => h.wf tyInt && KReg.wf kd && cond != .un
  | .vfcmp h kd .. => h.wf tyFlt && KReg.wf kd
  | .vwhile h kd .. => h.wf tyMx && KReg.wf kd
  | .kand h kd ka kb | .kor h kd ka kb | .kxor h kd ka kb | .kandn h kd ka kb =>
      h.wf tyMx && KReg.wf kd && KReg.wf ka && KReg.wf kb
  | .knot h kd ka | .kmov h kd ka => h.wf tyMx && KReg.wf kd && KReg.wf ka
  | .kpop h _ ka | .kfirst h _ ka => h.wf tyMx && KReg.wf ka
  | .vmxv h kd _ => h.wf [.mx4] && KReg.wf kd
  | .vmov h .. | .vgathr h .. | .vperm h .. | .vsldu h .. | .vsldd h .. | .vcmpr h .. | .vexpd h .. =>
      h.wf tyMx
  | .vbcast h .. => h.wf tyAll
  | .vbcastb h _ _ src k =>
      h.wf tyAll && decide (k.toNat ≤ 10) && (src == h.et || (tyInt.contains src && tyInt.contains h.et))
  | .viota h .. => h.wf tyInt
  | .vext _ et .. | .vins _ et .. => tyAll.contains et
  | .vrsum h .. | .vrmax h .. | .vrmin h .. | .vscan h .. => h.wf tyInt
  | .vfrsum h .. | .vfrmax h .. | .vfrmin h .. | .vfscan h .. => h.wf tyFlt
  | .vld h .. | .vst h .. | .vlds h .. | .vsts h .. | .vldx h .. | .vstx h ..
  | .vldff h .. | .vldffStrided h .. | .vldffIndexed h .. => h.wf tyMx
  | .vamo h _ op _ ret vd .. | .vamoo h _ op _ ret vd .. => h.wf tyAmo && amoForm h op ret vd
  | .vldgl h .. => h.wf tyAll
  | .vstsc h _ _ kd .. => h.wf tyAll && KReg.wf kd
  | .vsadd h .. => h.wf tyAmo
  | .mopa h .. | .mops h .. => h.wf tyMop [.ex, .tp, .lg] && (h.et != .i8 || h.cls == .ex)
  | .mread h _ _ _ rm => h.wf tyMrd && (rm == .rne || h.et == .f32 || h.et == .bf16)
  | .mwrite h .. => h.wf tyMrd
  | .vsend h va .. => h.wf tyAll && VReg.noHead va
  | .vrecv h vd _ => h.wf tyAll && VReg.noHead vd
  | .convoyStart tile | .matrixMemberStart tile | .matrixConvoyRetire tile | .spadStoreGrant tile _ _
  | .parityUpdate tile _ | .errorReconstruction tile _ | .sweepStep tile _ | .sweepPromote tile _ =>
      decide (tile < 384)
  | .serverAccess server | .refreshScrub server _ => decide (server < 256)
  | .walk die | .walkComplete die => decide (die < 4)
  | .boxOfficeQuery office => decide (office < 32)
  | .flitArrival port _ | .portDown port | .bulkBlockArrival port _ _ => decide (port < 36)
  | .inletWrite fn .. | .outletRead fn .. | .windowRead fn .. | .windowWrite fn .. | .msixTableWrite fn ..
  | .functionReset fn | .configurationRequest fn
  | .tenantCreate fn | .tenantQuota fn | .tenantDestroy fn | .topoSet fn | .cueSync fn | .healthReadCec fn
  | .healthReadServer fn | .healthSetThreshold fn | .healthClear fn | .bankRetire fn | .snapshot fn
  | .moduleReset fn | .attest fn | .netCreate fn | .netStart fn | .netKill fn | .netHold fn | .netPreempt fn
  | .netResume fn | .netStatus fn | .chanRebind fn | .chanHost fn | .resvServer fn | .mapAlloc fn
  | .mapFree fn | .mapRemote fn | .mapSync fn | .regCreate fn | .regRevoke fn | .regImport fn
  | .windowSet fn | .collBind fn => decide (fn < 66)
  | _ => true

end Sys2Proof
end

