-- ==== Sys2Proof/Decode.lean ====
section
/-!
DEFINITION. Decoding and encoding of scalar words (R53-R64) and vector words (R65-R68). A word that is no
instruction is rejected by the decode cause of R60: the earliest row of its table that applies.
-/

namespace Sys2Proof

/-- An 8-bit cause code (R24). -/
abbrev Cause := BitVec 8

/-! ## Codes of the coded fields -/

/-- Accuracy class codes; 11 is reserved (R58). -/
def ACls.ofCode (c : BitVec 2) : Option ACls :=
  match c.toNat with
  | 0 => some .ex | 1 => some .tp | 2 => some .lg | _ => none

/-- The code of an accuracy class (R58). -/
def ACls.code : ACls → BitVec 2
  | .ex => 0 | .tp => 1 | .lg => 2

/-- Rounding mode codes; 6 and 7 are reserved (R59). -/
def RMode.ofCode (c : BitVec 3) : Option RMode :=
  match c.toNat with
  | 0 => some .rne | 1 => some .rz | 2 => some .rd | 3 => some .ru | 4 => some .rna | 5 => some .sr
  | _ => none

/-- The code of a rounding mode (R59). -/
def RMode.code : RMode → BitVec 3
  | .rne => 0 | .rz => 1 | .rd => 2 | .ru => 3 | .rna => 4 | .sr => 5

/-- Access size codes (R54). -/
def Sz.ofCode (c : BitVec 2) : Sz :=
  match c.toNat with
  | 0 => .b | 1 => .h | 2 => .w | _ => .d

/-- The code of an access size (R54). -/
def Sz.code : Sz → BitVec 2
  | .b => 0 | .h => 1 | .w => 2 | .d => 3

/-- Size codes of atomics, 10 word and 11 doubleword (R64). -/
def ASz.code : ASz → BitVec 2
  | .w => 2 | .d => 3

/-- Ordering codes; 11 is reserved (R54, R64, R260, R321). -/
def Ord.ofCode (c : BitVec 2) : Option Ord :=
  match c.toNat with
  | 0 => some .relaxed | 1 => some .device | 2 => some .system | _ => none

/-- The code of an ordering (R54). -/
def Ord.code : Ord → BitVec 2
  | .relaxed => 0 | .device => 1 | .system => 2

/-- Element type codes; 15 is reserved (R57). -/
def ETy.ofCode (c : BitVec 4) : Option ETy :=
  match c.toNat with
  | 0 => some .i8 | 1 => some .i16 | 2 => some .i32 | 3 => some .i64
  | 4 => some .u8 | 5 => some .u16 | 6 => some .u32 | 7 => some .u64
  | 8 => some .f16 | 9 => some .bf16 | 10 => some .f32 | 11 => some .e4m3
  | 12 => some .e5m2 | 13 => some .mx4 | 14 => some .w56 | _ => none

/-- The code of an element type (R57). -/
def ETy.code : ETy → BitVec 4
  | .i8 => 0 | .i16 => 1 | .i32 => 2 | .i64 => 3 | .u8 => 4 | .u16 => 5 | .u32 => 6 | .u64 => 7
  | .f16 => 8 | .bf16 => 9 | .f32 => 10 | .e4m3 => 11 | .e5m2 => 12 | .mx4 => 13 | .w56 => 14

/-- Condition codes; 7 is reserved (R221). -/
def Cond.ofCode (c : BitVec 3) : Option Cond :=
  match c.toNat with
  | 0 => some .eq | 1 => some .ne | 2 => some .lt | 3 => some .le | 4 => some .gt | 5 => some .ge
  | 6 => some .un | _ => none

/-- The code of a condition (R221). -/
def Cond.code : Cond → BitVec 3
  | .eq => 0 | .ne => 1 | .lt => 2 | .le => 3 | .gt => 4 | .ge => 5 | .un => 6

/-- Scan operator codes; 3 is reserved (R232). -/
def ScanOp.ofCode (c : BitVec 2) : Option ScanOp :=
  match c.toNat with
  | 0 => some .sum | 1 => some .max | 2 => some .min | _ => none

/-- The code of a scan operator (R232). -/
def ScanOp.code : ScanOp → BitVec 2
  | .sum => 0 | .max => 1 | .min => 2

/-- Index width codes; 11 is reserved (R260, R321). -/
def IdxW.ofCode (c : BitVec 2) : Option IdxW :=
  match c.toNat with
  | 0 => some .w16 | 1 => some .w32 | 2 => some .w64 | _ => none

/-- The code of an index width (R260). -/
def IdxW.code : IdxW → BitVec 2
  | .w16 => 0 | .w32 => 1 | .w64 => 2

/-- Atomic operation codes of VAMO and VAMOO; 10 to 15 are reserved (R321). -/
def AOp.ofCode (c : BitVec 4) : Option AOp :=
  match c.toNat with
  | 0 => some .add | 1 => some .and | 2 => some .or | 3 => some .xor | 4 => some .min | 5 => some .max
  | 6 => some .minu | 7 => some .maxu | 8 => some .swap | 9 => some .cas | _ => none

/-- The code of an atomic operation (R318, R321). -/
def AOp.code : AOp → BitVec 4
  | .add => 0 | .and => 1 | .or => 2 | .xor => 3 | .min => 4 | .max => 5 | .minu => 6 | .maxu => 7
  | .swap => 8 | .cas => 9

/-! ## The order of R60 -/

/-- A decoded word, or the earliest row of R60 that rejects it. `i` is none for row 1; the other flags are
rows 2 to 6. -/
def decideRow (i : Option Instr) (zero priv cls ty mask : Bool) : Except Cause Instr :=
  match i with
  | none => .error 0x01
  | some i =>
    if zero then .error 0x02
    else if priv then .error 0x03
    else if cls then .error 0x04
    else if ty then .error 0x05
    else if mask then .error 0x06
    else .ok i

/-! ## Scalar words -/

/-- The field of a scalar word that starts at bit `lo`. -/
def sfield (w : SWord) (lo len : Nat) : BitVec len := w.extractLsb' lo len

/-- A word of format A that names three registers; ac must be EX (R62). -/
def decRrr (w : SWord) (k : GReg → GReg → GReg → Instr) : Except Cause Instr :=
  decideRow (some (k (sfield w 21 5) (sfield w 16 5) (sfield w 11 5))) false false
    (sfield w 9 2 != 0) false false

/-- A word of format A that names a and b, with c zero. -/
def decRr (w : SWord) (k : GReg → GReg → Instr) : Except Cause Instr :=
  decideRow (some (k (sfield w 21 5) (sfield w 16 5))) (sfield w 11 5 != 0) false
    (sfield w 9 2 != 0) false false

/-- A word of format A with no operand: a, b and c zero. -/
def decNone (w : SWord) (priv : Bool) (i : Instr) : Except Cause Instr :=
  decideRow (some i) (sfield w 21 5 != 0 || sfield w 16 5 != 0 || sfield w 11 5 != 0) priv
    (sfield w 9 2 != 0) false false

/-- A word of format I with both registers and its immediate. -/
def decImm (w : SWord) (k : GReg → GReg → BitVec 16 → Instr) : Except Cause Instr :=
  .ok (k (sfield w 21 5) (sfield w 16 5) (sfield w 0 16))

/-- A scalar FP32 word: fn[8:6] is a rounding mode only in the conversions (R63). -/
def decFp (w : SWord) (k : GReg → GReg → GReg → Instr) : Except Cause Instr :=
  decideRow (some (k (sfield w 21 5) (sfield w 16 5) (sfield w 11 5))) (sfield w 6 3 != 0) false
    (sfield w 9 2 != 0) false false

/-- FMUL and FMA take every class (R58). -/
def decFpCls (w : SWord) (k : ACls → GReg → GReg → GReg → Instr) : Except Cause Instr :=
  decideRow (some (k ((ACls.ofCode (sfield w 9 2)).getD .ex) (sfield w 21 5) (sfield w 16 5) (sfield w 11 5)))
    (sfield w 6 3 != 0) false (sfield w 9 2 == 3) false false

/-- A unary FP32 word without a rounding mode. -/
def decFp1 (w : SWord) (k : GReg → GReg → Instr) : Except Cause Instr :=
  decideRow (some (k (sfield w 21 5) (sfield w 16 5))) (sfield w 6 3 != 0 || sfield w 11 5 != 0) false
    (sfield w 9 2 != 0) false false

/-- A scalar conversion with a rounding mode (R59, R63). -/
def decCvt (w : SWord) (k : RMode → GReg → GReg → Instr) : Except Cause Instr :=
  decideRow ((RMode.ofCode (sfield w 6 3)).map fun rm => k rm (sfield w 21 5) (sfield w 16 5))
    (sfield w 11 5 != 0) false (sfield w 9 2 != 0) false false

/-- A load or store of format M (R54). -/
def decMem (w : SWord) (k : Sz → Ord → GReg → GReg → BitVec 12 → Instr) : Except Cause Instr :=
  decideRow ((Ord.ofCode (sfield w 12 2)).map fun o =>
    k (Sz.ofCode (sfield w 14 2)) o (sfield w 21 5) (sfield w 16 5) (sfield w 0 12))
    false false false false false

/-- A scalar atomic (R64). -/
def decAmo (w : SWord) (k : ASz → Ord → GReg → GReg → GReg → Instr) : Except Cause Instr :=
  decideRow ((Ord.ofCode (sfield w 6 2)).map fun o =>
    k (if sfield w 4 1 = 1 then .d else .w) o (sfield w 21 5) (sfield w 16 5) (sfield w 11 5))
    (sfield w 8 1 != 0) false (sfield w 9 2 != 0) (sfield w 5 1 != 1) false

/-- CAS: as an atomic, with fn[3:0] zero (R62); 9 to 15 are reserved there as in every atomic (R64). -/
def decCas (w : SWord) : Except Cause Instr :=
  decideRow ((if sfield w 0 4 ≤ 8 then Ord.ofCode (sfield w 6 2) else none).map fun o =>
    .cas (if sfield w 4 1 = 1 then .d else .w) o (sfield w 21 5) (sfield w 16 5) (sfield w 11 5))
    (sfield w 8 1 != 0 || sfield w 0 4 != 0) false (sfield w 9 2 != 0) (sfield w 5 1 != 1) false

/-- A branch of format B. -/
def decBr (w : SWord) (k : GReg → GReg → BitVec 16 → Instr) : Except Cause Instr :=
  .ok (k (sfield w 21 5) (sfield w 16 5) (sfield w 0 16))

/-- A channel word of format Q with disp16 zero (R163). -/
def decPort (w : SWord) (k : GReg → Port → Instr) : Except Cause Instr :=
  decideRow (some (k (sfield w 21 5) (sfield w 17 4))) (sfield w 16 1 != 0 || sfield w 0 16 != 0)
    false false false false

/-- CTLR: the control registers with behaviour of their own are instructions of their own (R139). -/
def decCtlr (priv : Bool) (w : SWord) : Except Cause Instr :=
  let a : GReg := sfield w 21 5
  let x : BitVec 12 := sfield w 0 12
  let z := sfield w 16 5 != 0 || sfield w 12 3 != 0
  if x.extractLsb' 3 9 = 0x1E0 then
    decideRow (some (.ctlrPmbox a (x.extractLsb' 0 3))) z (!priv) false false false
  else if x = 0x022 then decideRow (some (.ctlrVflags a)) z false false false false
  else if x = 0x021 then decideRow (some (.ctlrFfe a)) z false false false false
  else decideRow (if ctlPlain x then some (.ctlr a x) else none) z false false false false

/-- CTLW, as CTLR (R139). -/
def decCtlw (priv : Bool) (w : SWord) : Except Cause Instr :=
  let b : GReg := sfield w 16 5
  let x : BitVec 12 := sfield w 0 12
  let z := sfield w 21 5 != 0 || sfield w 12 3 != 0
  if x.extractLsb' 3 9 = 0x1E0 then
    decideRow (some (.ctlwPmbox b (x.extractLsb' 0 3))) z (!priv) false false false
  else if x.extractLsb' 3 9 = 0x007 then
    decideRow (some (.ctlwVbcnt b (x.extractLsb' 0 3))) z false false false false
  else match x.toNat with
    | 0x021 => decideRow (some (.ctlwFfe b)) z false false false false
    | 0x022 => decideRow (some (.ctlwVflags b)) z false false false false
    | 0x023 => decideRow (some (.ctlwXtab0 b)) z false false false false
    | 0x024 => decideRow (some (.ctlwXtab1 b)) z false false false false
    | 0x025 => decideRow (some (.ctlwSrseed b)) z false false false false
    | 0x030 => decideRow (some (.ctlwEncore b)) z false false false false
    | _ => decideRow (if ctlReadOnly x then some (.ctlw b x) else none) z false false false false

/-- Decoding of a scalar word (R60-R64); `priv` is the privileged state of R117. -/
def decodeScalar (priv : Bool) (w : SWord) : Except Cause Instr :=
  let a : GReg := sfield w 21 5
  let b : GReg := sfield w 16 5
  let c : GReg := sfield w 11 5
  let acBad := sfield w 9 2 != 0
  let fn : BitVec 9 := sfield w 0 9
  let imm : BitVec 16 := sfield w 0 16
  match (sfield w 26 6).toNat with
  | 0x00 => match fn.toNat with
    | 0x001 => decNone w false .sysc
    | 0x002 => decNone w (!priv) .eret
    | 0x003 => decNone w false .brk
    | 0x004 => decNone w false .retire
    | _ => .error 0x01
  | 0x01 => match fn.toNat with
    | 0x000 => decRrr w .add
    | 0x001 => decRrr w .sub
    | 0x002 => decRrr w .and
    | 0x003 => decRrr w .or
    | 0x004 => decRrr w .xor
    | 0x005 => decRrr w .andn
    | 0x006 => decRrr w .orn
    | 0x007 => decRrr w .sll
    | 0x008 => decRrr w .srl
    | 0x009 => decRrr w .sra
    | 0x00A => decRrr w .rol
    | 0x00B => decRrr w .ror
    | 0x00E => decRrr w .slt
    | 0x00F => decRrr w .sltu
    | 0x010 => decRrr w .min
    | 0x011 => decRrr w .max
    | 0x012 => decRrr w .minu
    | 0x013 => decRrr w .maxu
    | 0x014 => decRr w .clz
    | 0x015 => decRr w .ctz
    | 0x016 => decRr w .popc
    | 0x017 => decRr w .brev
    | 0x018 => decRr w .bswap
    | 0x019 => decRr w .sextb
    | 0x01A => decRr w .sexth
    | 0x01B => decRr w .sextw
    | 0x01C => decRr w .zextw
    | _ => .error 0x01
  | 0x02 => decImm w .addi
  | 0x03 => decImm w .andi
  | 0x04 => decImm w .ori
  | 0x05 => decImm w .xori
  | 0x06 => decImm w .slti
  | 0x07 => decImm w .sltiu
  | 0x08 =>
    let n : BitVec 6 := sfield w 0 6
    decideRow (match (sfield w 14 2).toNat with
      | 0 => some (.slli a b n) | 1 => some (.srli a b n) | 2 => some (.srai a b n) | _ => none)
      (sfield w 6 8 != 0) false false false false
  | 0x09 => decideRow (some (.lih a (sfield w 16 2) imm)) (sfield w 18 3 != 0) false false false false
  | 0x0A => match fn.toNat with
    | 0 => decRrr w .mul
    | 1 => decRrr w .mulh
    | 2 => decRrr w .mulhu
    | 3 => decRrr w .div
    | 4 => decRrr w .divu
    | 5 => decRrr w .rem
    | 6 => decRrr w .remu
    | _ => .error 0x01
  | 0x0B => match (sfield w 0 6).toNat with
    | 0x00 => decFp w .fadd
    | 0x01 => decFp w .fsub
    | 0x02 => decFpCls w .fmul
    | 0x03 => decFpCls w .fma
    | 0x04 => decFp w .fdiv
    | 0x05 => decFp1 w .fsqrt
    | 0x06 => decFp w .fmin
    | 0x07 => decFp w .fmax
    | 0x08 => decFp w .fcmpeq
    | 0x09 => decFp w .fcmplt
    | 0x0A => decFp w .fcmple
    | 0x0B => decCvt w .fcvtif
    | 0x0C => decCvt w .fcvtfi
    | 0x0D => decCvt w .fcvtbf
    | 0x0E => decFp1 w .fcvtfb
    | _ => .error 0x01
  | 0x0C => decMem w .ld
  | 0x0D => decMem w .ldu
  | 0x0E => decMem w .st
  | 0x10 => match (sfield w 0 4).toNat with
    | 0 => decAmo w .amoadd
    | 1 => decAmo w .amoand
    | 2 => decAmo w .amoor
    | 3 => decAmo w .amoxor
    | 4 => decAmo w .amomin
    | 5 => decAmo w .amomax
    | 6 => decAmo w .amominu
    | 7 => decAmo w .amomaxu
    | 8 => decAmo w .amoswap
    | _ => .error 0x01
  | 0x11 => decCas w
  | 0x14 => decBr w .beq
  | 0x15 => decBr w .bne
  | 0x16 => decBr w .blt
  | 0x17 => decBr w .bge
  | 0x18 => decBr w .bltu
  | 0x19 => decBr w .bgeu
  | 0x1A => .ok (.jal a (sfield w 0 21))
  | 0x1B => decImm w .jalr
  | 0x1C => decideRow (some (.sig imm)) (sfield w 16 10 != 0) false false false false
  | 0x20 => decPort w .recv
  | 0x21 => decPort w .recvn
  | 0x22 => decPort w .send
  | 0x23 =>
    let tag : BitVec 8 := sfield w 0 8
    decideRow (if 1 ≤ tag.toNat ∧ tag.toNat < 128 then some (.sendc a (sfield w 17 4) tag) else none)
      (sfield w 16 1 != 0 || sfield w 8 8 != 0) false false false false
  | 0x28 =>
    let n : BitVec 3 := sfield w 4 3
    let g : BitVec 4 := sfield w 0 4
    decideRow (if n.toNat ≤ 6 ∧ g.toNat ≤ 8 then some (.vconf a n g) else none)
      (b != 0 || sfield w 7 9 != 0) false false false false
  | 0x29 => decideRow (some (.vfetch (sfield w 0 21))) (a != 0) false false false false
  | 0x2A => decideRow (some (.vloop a b c)) (fn != 0) false acBad false false
  | 0x2B => match fn.toNat with
    | 1 => decNone w false .fenceSv
    | 2 => decNone w false .fenceVs
    | 3 => decNone w false .fenceVv
    | 4 => decNone w false .vsync
    | _ => .error 0x01
  | 0x2C => decideRow (if msetlRegs a b c then some (.msetl a b c) else none) (fn != 0) false acBad false false
  | 0x30 => decideRow (some (.sconf b (sfield w 0 3))) (a != 0 || sfield w 3 13 != 0) false false false false
  | 0x31 => decideRow (some (.sstep (sfield w 0 8)))
      (a != 0 || b != 0 || sfield w 8 8 != 0 || sfield w 0 8 == 0) false false false false
  | 0x32 => decideRow (some (.skick b (sfield w 0 3))) (a != 0 || sfield w 3 13 != 0) false false false false
  | 0x33 => decideRow (some (.stwait a b (sfield w 0 3))) (sfield w 3 13 != 0) false false false false
  | 0x34 => decideRow (some (.sdrain (sfield w 0 3))) (a != 0 || b != 0 || sfield w 3 13 != 0)
      false false false false
  | 0x35 => decideRow (some (.dispq b (sfield w 8 8) (sfield w 0 5))) (a != 0 || sfield w 5 3 != 0)
      false false false false
  | 0x38 =>
    let i : Option Instr := match fn.toNat with
      | 1 => some (.evset b) | 2 => some (.evclr b) | 3 => some (.evwait b) | _ => none
    decideRow i (a != 0 || c != 0) false acBad false false
  | 0x3C => match fn.toNat with
    | 1 => decideRow (some (.cue b c)) (a != 0) false acBad false false
    | 2 => decideRow (some (.cuewait b)) (a != 0 || c != 0) false acBad false false
    | 3 => decideRow (some (.rdcue a)) (b != 0 || c != 0) false acBad false false
    | _ => .error 0x01
  | 0x3D => match fn.toNat with
    | 1 => decideRow (some (.xpost b c)) (a != 0) false acBad false false
    | 2 => decideRow (some (.xwait a b)) (c != 0) false acBad false false
    | 3 => decideRow (some (.xcoll b c)) (a != 0) false acBad false false
    | _ => .error 0x01
  | 0x3E => if sfield w 15 1 = 0 then decCtlr priv w else decCtlw priv w
  | _ => .error 0x01

/-! ## Vector words -/

/-- The fields of a vector word (R65). -/
structure VFields where
  vop : BitVec 8
  ac : BitVec 2
  km : BitVec 5
  kn : BitVec 1
  dt : BitVec 1
  ch : BitVec 1
  et : BitVec 4
  vd : BitVec 5
  va : BitVec 5
  vb : BitVec 5
  vc : BitVec 5
  x22 : BitVec 22
  deriving DecidableEq, Repr

/-- A vector word taken apart (R65). -/
def VFields.ofWord (w : VWord) : VFields where
  vop := w.extractLsb' 56 8
  ac := w.extractLsb' 54 2
  km := w.extractLsb' 49 5
  kn := w.extractLsb' 48 1
  dt := w.extractLsb' 47 1
  ch := w.extractLsb' 46 1
  et := w.extractLsb' 42 4
  vd := w.extractLsb' 37 5
  va := w.extractLsb' 32 5
  vb := w.extractLsb' 27 5
  vc := w.extractLsb' 22 5
  x22 := w.extractLsb' 0 22

/-- A vector word put together (R65). -/
def VFields.toWord (f : VFields) : VWord :=
  f.vop ++ f.ac ++ f.km ++ f.kn ++ f.dt ++ f.ch ++ f.et ++ f.vd ++ f.va ++ f.vb ++ f.vc ++ f.x22

/-- Bit `i` of a field. -/
def bitOf {n : Nat} (x : BitVec n) (i : Nat) : Bool := x.getLsbD i

/-- The header of a word with an element loop; codes that R57 or R58 refuse stand for type 0 and EX. -/
def VFields.hdr (f : VFields) : VHdr where
  cls := (ACls.ofCode f.ac).getD .ex
  km := f.km
  kn := f.kn == 1
  dt := f.dt == 1
  ch := f.ch == 1
  et := (ETy.ofCode f.et).getD .i8

/-- The class field is one the instruction refuses (R58). -/
def VFields.clsBad (f : VFields) (classes : List ACls) : Bool :=
  match ACls.ofCode f.ac with
  | none => true
  | some c => !classes.contains c

/-- The type field is one the instruction refuses (R57, R205). -/
def VFields.tyBad (f : VFields) (types : List ETy) : Bool :=
  match ETy.ofCode f.et with
  | none => true
  | some t => !types.contains t

/-- A mask code of 24 to 31 (R56). -/
def kBad (k : BitVec 5) : Bool := decide (24 ≤ k.toNat)

/-- The source type of a conversion, x22[7:4] (R67). -/
def VFields.src (f : VFields) : Option ETy := ETy.ofCode (f.x22.extractLsb' 4 4)

/-- Decoding of a word with an element loop: `i` is none for row 1 of R60, `zero` and `ty` are further
grounds of rows 2 and 5, `mask` of row 6. -/
def VFields.loopWord (f : VFields) (types : List ETy) (classes : List ACls)
    (i : Option Instr) (zero ty mask : Bool) : Except Cause Instr :=
  decideRow i (zero || (f.kn == 1 && f.km == 0)) false (f.clsBad classes) (f.tyBad types || ty)
    (kBad f.km || mask)

/-- vb, vc and x22 hold zero. -/
def VFields.z3 (f : VFields) : Bool := f.vb != 0 || f.vc != 0 || f.x22 != 0

/-- An integer binary word, in register or immediate form (R206). -/
def VFields.decInt (f : VFields) (k : VHdr → VReg → VReg → VReg → Instr)
    (kImm : VHdr → VReg → VReg → BitVec 16 → Instr) : Except Cause Instr :=
  if bitOf f.x22 21 then
    f.loopWord tyInt [.ex] (some (kImm f.hdr f.vd f.va (f.x22.extractLsb' 0 16)))
      (f.vb != 0 || f.vc != 0 || f.x22.extractLsb' 16 5 != 0) false false
  else f.loopWord tyInt [.ex] (some (k f.hdr f.vd f.va f.vb)) (f.vc != 0 || f.x22 != 0) false false

/-- A word with vd, va and vb. -/
def VFields.dec3 (f : VFields) (types : List ETy) (classes : List ACls)
    (k : VHdr → VReg → VReg → VReg → Instr) : Except Cause Instr :=
  f.loopWord types classes (some (k f.hdr f.vd f.va f.vb)) (f.vc != 0 || f.x22 != 0) false false

/-- A word with vd, va, vb and vc. -/
def VFields.dec4 (f : VFields) (types : List ETy) (classes : List ACls)
    (k : VHdr → VReg → VReg → VReg → VReg → Instr) : Except Cause Instr :=
  f.loopWord types classes (some (k f.hdr f.vd f.va f.vb f.vc)) (f.x22 != 0) false false

/-- A word with vd and va. -/
def VFields.dec2 (f : VFields) (types : List ETy) (classes : List ACls)
    (k : VHdr → VReg → VReg → Instr) : Except Cause Instr :=
  f.loopWord types classes (some (k f.hdr f.vd f.va)) f.z3 false false

/-- A mask operation on two masks (R223). -/
def VFields.decK3 (f : VFields) (k : VHdr → KReg → KReg → KReg → Instr) : Except Cause Instr :=
  f.loopWord tyMx [.ex] (some (k f.hdr f.vd f.va f.vb)) (f.vc != 0 || f.x22 != 0) false
    (kBad f.vd || kBad f.va || kBad f.vb)

/-- A mask operation on one mask; `dm` when vd is a mask too (R223, R224). -/
def VFields.decK2 (f : VFields) (dm : Bool) (k : VHdr → BitVec 5 → KReg → Instr) : Except Cause Instr :=
  f.loopWord tyMx [.ex] (some (k f.hdr f.vd f.va)) f.z3 false ((dm && kBad f.vd) || kBad f.va)

/-- A scan (R232). -/
def VFields.decScan (f : VFields) (types : List ETy) (k : VHdr → VReg → VReg → ScanOp → Instr) :
    Except Cause Instr :=
  f.loopWord types [.ex] ((ScanOp.ofCode (f.x22.extractLsb' 0 2)).map (k f.hdr f.vd f.va))
    (f.vb != 0 || f.vc != 0 || f.x22.extractLsb' 2 20 != 0) false false

/-- A slide (R229). -/
def VFields.decSlide (f : VFields) (k : VHdr → VReg → VReg → VReg → BitVec 16 → Instr) : Except Cause Instr :=
  f.loopWord tyMx [.ex] (some (k f.hdr f.vd f.va f.vb (f.x22.extractLsb' 0 16)))
    (f.vc != 0 || f.x22.extractLsb' 16 6 != 0) false false

/-- VEXT and VINS have no governing mask (R210). -/
def VFields.decNoMask (f : VFields) (i : Instr) : Except Cause Instr :=
  decideRow (some i) (f.km != 0 || f.kn != 0 || f.dt != 0 || f.vc != 0 || f.x22 != 0) false
    (f.clsBad [.ex]) (f.tyBad tyAll) false

/-- The ord field of vector memory words (R260, R321). -/
def VFields.ord (f : VFields) : Option Ord := Ord.ofCode (f.x22.extractLsb' 20 2)

/-- A unit-stride or strided access: form 0, width 0 (R260). -/
def VFields.decMemU (f : VFields) (k : VHdr → Ord → VReg → GReg → BitVec 16 → Instr) : Except Cause Instr :=
  f.loopWord tyMx [.ex]
    (if f.x22.extractLsb' 18 2 = 3 ∨ f.x22.extractLsb' 16 2 = 3 then none
     else f.ord.map fun o => k f.hdr o f.vd f.vb (f.x22.extractLsb' 0 16))
    (f.va != 0 || f.vc != 0 || f.x22.extractLsb' 16 4 != 0) false false

/-- A strided access (R260). -/
def VFields.decMemS (f : VFields) (k : VHdr → Ord → VReg → GReg → GReg → BitVec 16 → Instr) :
    Except Cause Instr :=
  f.loopWord tyMx [.ex]
    (if f.x22.extractLsb' 18 2 = 3 ∨ f.x22.extractLsb' 16 2 = 3 then none
     else f.ord.map fun o => k f.hdr o f.vd f.vb f.vc (f.x22.extractLsb' 0 16))
    (f.va != 0 || f.x22.extractLsb' 16 4 != 0) false false

/-- An indexed access (R260). -/
def VFields.decMemX (f : VFields) (k : VHdr → Ord → IdxW → VReg → VReg → GReg → BitVec 16 → Instr) :
    Except Cause Instr :=
  f.loopWord tyMx [.ex]
    (if f.x22.extractLsb' 18 2 = 3 then none
     else match f.ord, IdxW.ofCode (f.x22.extractLsb' 16 2) with
      | some o, some iw => some (k f.hdr o iw f.vd f.va f.vb (f.x22.extractLsb' 0 16))
      | _, _ => none)
    (f.vc != 0 || f.x22.extractLsb' 18 2 != 0) false false

/-- VLDFF in its three forms (R260). -/
def VFields.decMemFf (f : VFields) : Except Cause Instr :=
  let disp : BitVec 16 := f.x22.extractLsb' 0 16
  let wc : BitVec 2 := f.x22.extractLsb' 16 2
  match (f.x22.extractLsb' 18 2).toNat with
  | 0 => f.loopWord tyMx [.ex]
      (if wc = 3 then none else f.ord.map fun o => .vldff f.hdr o f.vd f.vb disp)
      (f.va != 0 || f.vc != 0 || wc != 0) false false
  | 1 => f.loopWord tyMx [.ex]
      (if wc = 3 then none else f.ord.map fun o => .vldffStrided f.hdr o f.vd f.vb f.vc disp)
      (f.va != 0 || wc != 0) false false
  | 2 => f.loopWord tyMx [.ex]
      (match f.ord, IdxW.ofCode wc with
        | some o, some iw => some (.vldffIndexed f.hdr o iw f.vd f.va f.vb disp)
        | _, _ => none)
      (f.vc != 0) false false
  | _ => .error 0x01

/-- VAMO and VAMOO (R321). -/
def VFields.decVamo (f : VFields)
    (k : VHdr → Ord → AOp → IdxW → Bool → VReg → VReg → GReg → VReg → Instr) : Except Cause Instr :=
  let ret := bitOf f.x22 13
  match f.ord, AOp.ofCode (f.x22.extractLsb' 16 4), IdxW.ofCode (f.x22.extractLsb' 14 2) with
  | some o, some op, some iw =>
    f.loopWord tyAmo [.ex]
      (if op = .cas ∧ ret = false then none else some (k f.hdr o op iw ret f.vd f.va f.vb f.vc))
      ((!ret && f.vd != 0) || f.x22.extractLsb' 0 13 != 0)
      (f.hdr.et == .f32 && !([AOp.add, .min, .max, .swap, .cas].contains op)) false
  | _, _, _ => .error 0x01

/-- VLDGL and VSADD (R321). -/
def VFields.decLink (f : VFields) (types : List ETy) (k : VHdr → Ord → IdxW → VReg → VReg → GReg → Instr) :
    Except Cause Instr :=
  match f.ord, IdxW.ofCode (f.x22.extractLsb' 14 2) with
  | some o, some iw => f.loopWord types [.ex] (some (k f.hdr o iw f.vd f.va f.vb))
      (f.vc != 0 || f.x22.extractLsb' 16 4 != 0 || f.x22.extractLsb' 0 14 != 0) false false
  | _, _ => .error 0x01

/-- VSTSC (R321). -/
def VFields.decVstsc (f : VFields) : Except Cause Instr :=
  let kd : KReg := f.x22.extractLsb' 8 5
  match f.ord, IdxW.ofCode (f.x22.extractLsb' 14 2) with
  | some o, some iw => f.loopWord tyAll [.ex] (some (.vstsc f.hdr o iw kd f.vd f.va f.vb))
      (f.vc != 0 || f.x22.extractLsb' 16 4 != 0 || bitOf f.x22 13 || f.x22.extractLsb' 0 8 != 0)
      false (kBad kd)
  | _, _ => .error 0x01

/-- MOPA and MOPS; `.i8` takes EX only (R281). -/
def VFields.decMop (f : VFields) (k : VHdr → BitVec 2 → VReg → BitVec 1 → Instr) : Except Cause Instr :=
  f.loopWord tyMop (if f.hdr.et = .i8 ∧ f.tyBad tyMop = false then [.ex] else [.ex, .tp, .lg])
    (some (k f.hdr (f.vd.extractLsb' 0 2) f.va (f.vb.extractLsb' 0 1)))
    (f.vd.extractLsb' 2 3 != 0 || f.vb.extractLsb' 1 4 != 0 || f.vc != 0 || f.x22 != 0) false false

/-- MREAD (R286). -/
def VFields.decMread (f : VFields) : Except Cause Instr :=
  match RMode.ofCode (f.x22.extractLsb' 0 3) with
  | none => .error 0x01
  | some rm => f.loopWord tyMrd [.ex]
      (some (.mread f.hdr (f.vd.extractLsb' 0 2) f.va (f.x22.extractLsb' 8 6) rm))
      (f.vd.extractLsb' 2 3 != 0 || f.vb != 0 || f.vc != 0 || f.x22.extractLsb' 14 8 != 0 ||
        f.x22.extractLsb' 3 5 != 0 || (rm != .rne && f.hdr.et != .f32 && f.hdr.et != .bf16)) false false

/-- MWRITE (R286). -/
def VFields.decMwrite (f : VFields) : Except Cause Instr :=
  match RMode.ofCode (f.x22.extractLsb' 0 3) with
  | none => .error 0x01
  | some _ => f.loopWord tyMrd [.ex]
      (some (.mwrite f.hdr (f.vd.extractLsb' 0 2) f.va (f.x22.extractLsb' 8 6)))
      (f.vd.extractLsb' 2 3 != 0 || f.vb != 0 || f.vc != 0 || f.x22.extractLsb' 14 8 != 0 ||
        f.x22.extractLsb' 0 8 != 0) false false

/-- MSAVE and MLOAD (R288). -/
def VFields.decSave (f : VFields) (kAcc : Bool → Ord → BitVec 2 → GReg → BitVec 16 → Instr)
    (kSl : Bool → Ord → BitVec 1 → Bool → GReg → BitVec 16 → Instr) : Except Cause Instr :=
  let disp : BitVec 16 := f.x22.extractLsb' 0 16
  let z := f.va != 0 || f.km != 0 || f.kn != 0 || f.dt != 0 || f.et != 0 || f.x22.extractLsb' 16 2 != 0
  let zAcc := z || f.vd.extractLsb' 2 3 != 0 || f.vb != 0
  let zSl := z || f.vd != 0 || f.vb.extractLsb' 1 4 != 0
  match f.ord, (f.x22.extractLsb' 18 2).toNat with
  | some o, 0 => decideRow (some (kAcc (f.ch == 1) o (f.vd.extractLsb' 0 2) f.vc disp)) zAcc false
      (f.clsBad [.ex]) false false
  | some o, 1 => decideRow (some (kSl (f.ch == 1) o (f.vb.extractLsb' 0 1) false f.vc disp)) zSl false
      (f.clsBad [.ex]) false false
  | some o, 2 => decideRow (some (kSl (f.ch == 1) o (f.vb.extractLsb' 0 1) true f.vc disp)) zSl false
      (f.clsBad [.ex]) false false
  | _, _ => .error 0x01

/-- Every field but vop, ch and the named one holds zero (R65, R192, R285, R290). -/
def VFields.bareZero (f : VFields) (vd vb x22 : Bool) : Bool :=
  f.ac != 0 || f.km != 0 || f.kn != 0 || f.dt != 0 || f.et != 0 || (vd && f.vd != 0) || f.va != 0 ||
    (vb && f.vb != 0) || f.vc != 0 || (x22 && f.x22 != 0)

/-- Decoding of a vector word, all rows of R60 but row 7, which depends on the geometry (R65-R68) (DEDUCED, log 31). -/
def VFields.decode (f : VFields) : Except Cause Instr :=
  match f.vop.toNat with
  | 0x01 => decideRow (if f.ch = 1 then none else some .vstop) (f.bareZero true true true) false false false false
  | 0x02 => decideRow (some (.vnop (f.ch == 1))) (f.bareZero true true true) false false false false
  | 0x03 => decideRow (if f.ch = 1 then none else some (.vsig (f.x22.extractLsb' 0 16)))
      (f.bareZero true true false || f.x22.extractLsb' 16 6 != 0) false false false false
  | 0x04 => f.loopWord tyMx [.ex] (some (.vpsn f.hdr f.vd f.va)) (f.ac != 0 || f.z3) false (kBad f.vd)
  | 0x05 => f.loopWord tyMx [.ex] (if VReg.noHead f.vd then some (.vpclr f.hdr f.vd) else none)
      (f.ac != 0 || f.va != 0 || f.z3) false false
  | 0x06 => decideRow (if f.ch = 1 then none else some (.mring (f.vb.extractLsb' 0 1)))
      (f.bareZero true false true || f.vb.extractLsb' 1 4 != 0) false false false false
  | 0x10 => f.decInt .vadd .vaddImm
  | 0x11 => f.decInt .vsub .vsubImm
  | 0x12 => f.decInt .vadds .vaddsImm
  | 0x13 => f.decInt .vsubs .vsubsImm
  | 0x14 => f.decInt .vmul .vmulImm
  | 0x15 => f.decInt .vmulh .vmulhImm
  | 0x16 => f.dec4 tyInt [.ex] .vmad
  | 0x17 => f.decInt .vmin .vminImm
  | 0x18 => f.decInt .vmax .vmaxImm
  | 0x19 => f.decInt .vand .vandImm
  | 0x1A => f.decInt .vor .vorImm
  | 0x1B => f.decInt .vxor .vxorImm
  | 0x1C => f.decInt .vsll .vsllImm
  | 0x1D => f.decInt .vsrl .vsrlImm
  | 0x1E => f.decInt .vsra .vsraImm
  | 0x1F => f.dec2 tyInt [.ex] .vabs
  | 0x20 => f.dec2 tyInt [.ex] .vneg
  | 0x30 => f.dec3 tyFlt [.ex] .vfadd
  | 0x31 => f.dec3 tyFlt [.ex] .vfsub
  | 0x32 => f.dec3 tyFlt [.ex, .tp, .lg] .vfmul
  | 0x33 => f.dec4 tyFlt [.ex, .tp, .lg] .vfma
  | 0x34 => f.dec4 tyFlt [.ex, .tp, .lg] .vfnma
  | 0x35 => f.dec3 tyFlt [.ex] .vfmin
  | 0x36 => f.dec3 tyFlt [.ex] .vfmax
  | 0x37 => f.dec2 tyFlt [.ex] .vfabs
  | 0x38 => f.dec2 tyFlt [.ex] .vfneg
  | 0x39 => f.loopWord tyFlt [.ex] (some (.vfscl f.hdr f.vd f.va f.vb (bitOf f.x22 0)))
      (f.vc != 0 || f.x22.extractLsb' 1 21 != 0) false false
  | 0x3A => f.dec2 tyFlt [.ex, .lg] .vfrcp
  | 0x3B => f.dec2 tyFlt [.ex, .lg] .vfrsq
  | 0x3C => f.dec2 tyFlt [.ex, .lg] .vfexp2
  | 0x3D => f.dec2 tyFlt [.ex, .lg] .vflog2
  | 0x50 =>
    let sat := bitOf f.x22 3
    let src := f.src.getD .w56
    match RMode.ofCode (f.x22.extractLsb' 0 3) with
    | none => .error 0x01
    | some rm => f.loopWord tyAll [.ex] (some (.vcvt f.hdr f.vd f.va src sat rm))
        (f.vb != 0 || f.vc != 0 || f.x22.extractLsb' 8 14 != 0 || (sat && f.et != ETy.code .e4m3) ||
          (rm != .rne && tyAll.contains src && !f.tyBad tyAll && exactPair src f.hdr.et))
        (!tyAll.contains src) false
  | 0x51 => f.loopWord [.e4m3, .e5m2] [.ex] ((RMode.ofCode (f.x22.extractLsb' 0 3)).map fun _ => .vcvtx f.hdr f.vd f.va)
      (f.vb != 0 || f.vc != 0 || f.x22.extractLsb' 8 14 != 0 || f.x22.extractLsb' 0 4 != 0)
      (f.src != some .u8) false
  | 0x52 => f.loopWord tyFlt [.ex]
      ((RMode.ofCode (f.x22.extractLsb' 0 3)).map (.vmxup f.hdr f.vd f.va))
      (f.vb != 0 || f.vc != 0 || f.x22.extractLsb' 8 14 != 0 || bitOf f.x22 3) (f.src != some .mx4) false
  | 0x53 =>
    let src := f.src.getD .w56
    f.loopWord [.mx4] [.ex]
      ((RMode.ofCode (f.x22.extractLsb' 0 3)).map (.vmxpk f.hdr f.vd f.va src))
      (f.vb != 0 || f.vc != 0 || f.x22.extractLsb' 8 14 != 0 || bitOf f.x22 3) (!tyFlt.contains src) false
  | 0x60 => f.loopWord tyInt [.ex]
      (match Cond.ofCode (f.x22.extractLsb' 0 3) with
        | some .un => none
        | c => c.map (.vcmp f.hdr f.vd f.va f.vb))
      (f.vc != 0 || f.x22.extractLsb' 3 19 != 0) false (kBad f.vd)
  | 0x61 => f.loopWord tyFlt [.ex] ((Cond.ofCode (f.x22.extractLsb' 0 3)).map (.vfcmp f.hdr f.vd f.va f.vb))
      (f.vc != 0 || f.x22.extractLsb' 3 19 != 0) false (kBad f.vd)
  | 0x62 => f.loopWord tyMx [.ex] (some (.vwhile f.hdr f.vd f.va f.vb (bitOf f.x22 0)))
      (f.vc != 0 || f.x22.extractLsb' 1 21 != 0) false (kBad f.vd)
  | 0x63 => f.decK3 .kand
  | 0x64 => f.decK3 .kor
  | 0x65 => f.decK3 .kxor
  | 0x66 => f.decK3 .kandn
  | 0x67 => f.decK2 true .knot
  | 0x68 => f.decK2 false .kpop
  | 0x69 => f.decK2 false .kfirst
  | 0x6A => f.decK2 true .kmov
  | 0x6B => f.loopWord [.mx4] [.ex] (some (.vmxv f.hdr f.vd f.va)) f.z3 false (kBad f.vd)
  | 0x70 => f.dec2 tyMx [.ex] .vmov
  | 0x71 => f.dec2 tyAll [.ex] .vbcast
  | 0x72 =>
    let src := f.src.getD .w56
    f.loopWord tyAll [.ex]
      (if (f.x22.extractLsb' 8 5).toNat ≤ 10 then some (.vbcastb f.hdr f.vd f.va src (f.x22.extractLsb' 8 5))
       else none)
      (f.vb != 0 || f.vc != 0 || f.x22.extractLsb' 13 9 != 0 || f.x22.extractLsb' 0 4 != 0)
      (!(src == f.hdr.et || (tyInt.contains src && tyInt.contains f.hdr.et))) false
  | 0x73 => f.dec3 tyMx [.ex] .vgathr
  | 0x74 => f.dec3 tyMx [.ex] .vperm
  | 0x75 => f.decSlide .vsldu
  | 0x76 => f.decSlide .vsldd
  | 0x77 => f.dec2 tyMx [.ex] .vcmpr
  | 0x78 => f.dec2 tyMx [.ex] .vexpd
  | 0x79 => f.loopWord tyInt [.ex] (some (.viota f.hdr f.vd (bitOf f.x22 0)))
      (f.va != 0 || f.vb != 0 || f.vc != 0 || f.x22.extractLsb' 1 21 != 0) false false
  | 0x7A => f.decNoMask (.vext (f.ch == 1) f.hdr.et f.vd f.va f.vb)
  | 0x7B => f.decNoMask (.vins (f.ch == 1) f.hdr.et f.vd f.va f.vb)
  | 0x80 => f.dec2 tyInt [.ex] .vrsum
  | 0x81 => f.dec2 tyInt [.ex] .vrmax
  | 0x82 => f.dec2 tyInt [.ex] .vrmin
  | 0x83 => f.decScan tyInt .vscan
  | 0x84 => f.dec2 tyFlt [.ex] .vfrsum
  | 0x85 => f.dec2 tyFlt [.ex] .vfrmax
  | 0x86 => f.dec2 tyFlt [.ex] .vfrmin
  | 0x87 => f.decScan tyFlt .vfscan
  | 0x90 => f.decMemU .vld
  | 0x91 => f.decMemU .vst
  | 0x92 => f.decMemS .vlds
  | 0x93 => f.decMemS .vsts
  | 0x94 => f.decMemX .vldx
  | 0x95 => f.decMemX .vstx
  | 0x96 => f.decMemFf
  | 0xB0 => f.decVamo .vamo
  | 0xB1 => f.decVamo .vamoo
  | 0xB2 => f.decLink tyAll .vldgl
  | 0xB3 => f.decVstsc
  | 0xB4 => f.decLink tyAmo .vsadd
  | 0xC0 => decideRow (some (.mzero (f.ch == 1) (f.vd.extractLsb' 0 2)))
      (f.bareZero false true true || f.vd.extractLsb' 2 3 != 0) false false false false
  | 0xC1 => f.decMop .mopa
  | 0xC2 => f.decMop .mops
  | 0xC3 => f.decMread
  | 0xC4 => f.decMwrite
  | 0xC5 => f.decSave .msaveAcc .msaveLatch
  | 0xC6 => f.decSave .mloadAcc .mloadLatch
  | 0xD0 => f.loopWord tyAll [.ex]
      (if bitOf f.x22 7 = false ∧ VReg.noHead f.va then
        some (.vsend f.hdr f.va (f.vb.extractLsb' 0 4) (f.x22.extractLsb' 0 7)) else none)
      (f.vd != 0 || f.vb.extractLsb' 4 1 != 0 || f.vc != 0 || f.x22.extractLsb' 8 14 != 0) false false
  | 0xD1 => f.loopWord tyAll [.ex]
      (if VReg.noHead f.vd then some (.vrecv f.hdr f.vd (f.vb.extractLsb' 0 4)) else none)
      (f.va != 0 || f.vb.extractLsb' 4 1 != 0 || f.vc != 0 || f.x22 != 0) false false
  | _ => .error 0x01

/-- Decoding of a vector word (R65-R68) (DEDUCED, log 31). -/
def decodeVector (w : VWord) : Except Cause Instr := (VFields.ofWord w).decode

/-! ## Bytes of words (R53) -/

/-- A little-endian value of the first `n` bytes (R5). -/
def leNat : List Byte → Nat
  | [] => 0
  | b :: bs => b.toNat + 256 * leNat bs

/-- The `n` low bytes of a value, least significant first (R5). -/
def leBytes : Nat → Nat → List Byte
  | 0, _ => []
  | n + 1, x => BitVec.ofNat 8 x :: leBytes n (x / 256)

/-- Decoding of the bytes of one word as memory holds them: four bytes are a scalar word, eight a vector
word (R53); any other number is no word. -/
def decodeBytes (priv : Bool) (bytes : List Byte) : Except Cause Instr :=
  if bytes.length = 4 then decodeScalar priv (BitVec.ofNat 32 (leNat bytes))
  else if bytes.length = 8 then decodeVector (BitVec.ofNat 64 (leNat bytes))
  else .error 0x01

/-- The instruction the decoder reads from a word of `nbits` bits, in the privileged state. -/
def decodeTableWord (nbits w : Nat) : Option Instr :=
  (decodeBytes true (leBytes (nbits / 8) w)).toOption

/-! ## Encoding -/

/-- The words of an instruction: a scalar word, a vector word, or none for an event or a command. -/
inductive Words where
  | scalar (w : SWord)
  | vector (w : VWord)
  | event
  deriving DecidableEq, Repr

/-- A word of format A (R54). -/
def encA (maj : BitVec 6) (a b c : GReg) (ac : BitVec 2) (fn : BitVec 9) : Words :=
  .scalar (maj ++ a ++ b ++ c ++ ac ++ fn)

/-- A word of format I (R54). -/
def encI (maj : BitVec 6) (a b : GReg) (imm : BitVec 16) : Words := .scalar (maj ++ a ++ b ++ imm)

/-- A word of format M (R54). -/
def encM (maj : BitVec 6) (sz : Sz) (ord : Ord) (a b : GReg) (disp : BitVec 12) : Words :=
  .scalar (maj ++ a ++ b ++ sz.code ++ ord.code ++ disp)

/-- A word of format J (R54). -/
def encJ (maj : BitVec 6) (a : GReg) (disp : BitVec 21) : Words := .scalar (maj ++ a ++ disp)

/-- A word of format Q (R54). -/
def encQ (maj : BitVec 6) (a : GReg) (q : Port) (disp : BitVec 16) : Words :=
  .scalar (maj ++ a ++ q ++ (0 : BitVec 1) ++ disp)

/-- The fn field of an atomic (R64). -/
def amoFn (sz : ASz) (ord : Ord) (op : BitVec 4) : BitVec 9 := (0 : BitVec 1) ++ ord.code ++ sz.code ++ op

/-- An FP32 word's fn field: rounding mode and sub-function (R63). -/
def fpFn (rm : RMode) (f : BitVec 6) : BitVec 9 := rm.code ++ f

/-- A one-bit field. -/
def bit1 (b : Bool) : BitVec 1 := if b then 1 else 0

/-- A vector word with an element loop (R65). -/
def encV (vop : BitVec 8) (h : VHdr) (vd va vb vc : BitVec 5) (x22 : BitVec 22) : Words :=
  .vector (VFields.toWord
    { vop, ac := h.cls.code, km := h.km, kn := bit1 h.kn, dt := bit1 h.dt, ch := bit1 h.ch,
      et := h.et.code, vd, va, vb, vc, x22 })

/-- A vector word without an element loop (R65). -/
def encB (vop : BitVec 8) (ch : Bool) (vd vb vc : BitVec 5) (x22 : BitVec 22) : Words :=
  .vector (VFields.toWord
    { vop, ac := 0, km := 0, kn := 0, dt := 0, ch := bit1 ch, et := 0, vd, va := 0, vb, vc, x22 })

/-- x22 of the immediate form (R206). -/
def x22Imm (imm : BitVec 16) : BitVec 22 := (1 : BitVec 1) ++ (0 : BitVec 5) ++ imm

/-- x22 of a conversion (R67). -/
def x22Cvt (src : ETy) (sat : Bool) (rm : RMode) : BitVec 22 :=
  (0 : BitVec 14) ++ src.code ++ bit1 sat ++ rm.code

/-- x22 of a vector memory access (R260). -/
def x22Mem (ord : Ord) (form iw : BitVec 2) (disp : BitVec 16) : BitVec 22 := ord.code ++ form ++ iw ++ disp

/-- x22 of a vector atomic (R321). -/
def x22Amo (ord : Ord) (op : BitVec 4) (iw : IdxW) (ret : Bool) (kd : KReg) : BitVec 22 :=
  ord.code ++ op ++ iw.code ++ bit1 ret ++ kd ++ (0 : BitVec 8)

/-- An accumulator or latch number as an operand field (R68). -/
def accField (n : BitVec 2) : BitVec 5 := (0 : BitVec 3) ++ n
/-- A span latch number as an operand field (R68). -/
def slField (n : BitVec 1) : BitVec 5 := (0 : BitVec 4) ++ n
/-- A port number as an operand field (R68). -/
def portField (q : Port) : BitVec 5 := (0 : BitVec 1) ++ q

/-- The word of a well-formed instruction, from the encodings of R54-R68. -/
def encode : Instr → Words
  | .sysc => encA 0x00 0 0 0 0 0x001
  | .eret => encA 0x00 0 0 0 0 0x002
  | .brk => encA 0x00 0 0 0 0 0x003
  | .retire => encA 0x00 0 0 0 0 0x004
  | .add a b c => encA 0x01 a b c 0 0x000
  | .sub a b c => encA 0x01 a b c 0 0x001
  | .and a b c => encA 0x01 a b c 0 0x002
  | .or a b c => encA 0x01 a b c 0 0x003
  | .xor a b c => encA 0x01 a b c 0 0x004
  | .andn a b c => encA 0x01 a b c 0 0x005
  | .orn a b c => encA 0x01 a b c 0 0x006
  | .sll a b c => encA 0x01 a b c 0 0x007
  | .srl a b c => encA 0x01 a b c 0 0x008
  | .sra a b c => encA 0x01 a b c 0 0x009
  | .rol a b c => encA 0x01 a b c 0 0x00A
  | .ror a b c => encA 0x01 a b c 0 0x00B
  | .slt a b c => encA 0x01 a b c 0 0x00E
  | .sltu a b c => encA 0x01 a b c 0 0x00F
  | .min a b c => encA 0x01 a b c 0 0x010
  | .max a b c => encA 0x01 a b c 0 0x011
  | .minu a b c => encA 0x01 a b c 0 0x012
  | .maxu a b c => encA 0x01 a b c 0 0x013
  | .clz a b => encA 0x01 a b 0 0 0x014
  | .ctz a b => encA 0x01 a b 0 0 0x015
  | .popc a b => encA 0x01 a b 0 0 0x016
  | .brev a b => encA 0x01 a b 0 0 0x017
  | .bswap a b => encA 0x01 a b 0 0 0x018
  | .sextb a b => encA 0x01 a b 0 0 0x019
  | .sexth a b => encA 0x01 a b 0 0 0x01A
  | .sextw a b => encA 0x01 a b 0 0 0x01B
  | .zextw a b => encA 0x01 a b 0 0 0x01C
  | .addi a b imm => encI 0x02 a b imm
  | .andi a b imm => encI 0x03 a b imm
  | .ori a b imm => encI 0x04 a b imm
  | .xori a b imm => encI 0x05 a b imm
  | .slti a b imm => encI 0x06 a b imm
  | .sltiu a b imm => encI 0x07 a b imm
  | .slli a b n => encI 0x08 a b ((0x0#2 : BitVec 2) ++ (0 : BitVec 8) ++ n)
  | .srli a b n => encI 0x08 a b ((0x1#2 : BitVec 2) ++ (0 : BitVec 8) ++ n)
  | .srai a b n => encI 0x08 a b ((0x2#2 : BitVec 2) ++ (0 : BitVec 8) ++ n)
  | .lih a pos imm => encI 0x09 a ((0 : BitVec 3) ++ pos) imm
  | .mul a b c => encA 0x0A a b c 0 0x000
  | .mulh a b c => encA 0x0A a b c 0 0x001
  | .mulhu a b c => encA 0x0A a b c 0 0x002
  | .div a b c => encA 0x0A a b c 0 0x003
  | .divu a b c => encA 0x0A a b c 0 0x004
  | .rem a b c => encA 0x0A a b c 0 0x005
  | .remu a b c => encA 0x0A a b c 0 0x006
  | .fadd a b c => encA 0x0B a b c 0 (fpFn .rne 0x00)
  | .fsub a b c => encA 0x0B a b c 0 (fpFn .rne 0x01)
  | .fmul cls a b c => encA 0x0B a b c cls.code (fpFn .rne 0x02)
  | .fma cls a b c => encA 0x0B a b c cls.code (fpFn .rne 0x03)
  | .fdiv a b c => encA 0x0B a b c 0 (fpFn .rne 0x04)
  | .fsqrt a b => encA 0x0B a b 0 0 (fpFn .rne 0x05)
  | .fmin a b c => encA 0x0B a b c 0 (fpFn .rne 0x06)
  | .fmax a b c => encA 0x0B a b c 0 (fpFn .rne 0x07)
  | .fcmpeq a b c => encA 0x0B a b c 0 (fpFn .rne 0x08)
  | .fcmplt a b c => encA 0x0B a b c 0 (fpFn .rne 0x09)
  | .fcmple a b c => encA 0x0B a b c 0 (fpFn .rne 0x0A)
  | .fcvtif rm a b => encA 0x0B a b 0 0 (fpFn rm 0x0B)
  | .fcvtfi rm a b => encA 0x0B a b 0 0 (fpFn rm 0x0C)
  | .fcvtbf rm a b => encA 0x0B a b 0 0 (fpFn rm 0x0D)
  | .fcvtfb a b => encA 0x0B a b 0 0 (fpFn .rne 0x0E)
  | .ld sz ord a b disp => encM 0x0C sz ord a b disp
  | .ldu sz ord a b disp => encM 0x0D sz ord a b disp
  | .st sz ord a b disp => encM 0x0E sz ord a b disp
  | .amoadd sz ord a b c => encA 0x10 a b c 0 (amoFn sz ord 0)
  | .amoand sz ord a b c => encA 0x10 a b c 0 (amoFn sz ord 1)
  | .amoor sz ord a b c => encA 0x10 a b c 0 (amoFn sz ord 2)
  | .amoxor sz ord a b c => encA 0x10 a b c 0 (amoFn sz ord 3)
  | .amomin sz ord a b c => encA 0x10 a b c 0 (amoFn sz ord 4)
  | .amomax sz ord a b c => encA 0x10 a b c 0 (amoFn sz ord 5)
  | .amominu sz ord a b c => encA 0x10 a b c 0 (amoFn sz ord 6)
  | .amomaxu sz ord a b c => encA 0x10 a b c 0 (amoFn sz ord 7)
  | .amoswap sz ord a b c => encA 0x10 a b c 0 (amoFn sz ord 8)
  | .cas sz ord a b c => encA 0x11 a b c 0 (amoFn sz ord 0)
  | .beq a b disp => encI 0x14 a b disp
  | .bne a b disp => encI 0x15 a b disp
  | .blt a b disp => encI 0x16 a b disp
  | .bge a b disp => encI 0x17 a b disp
  | .bltu a b disp => encI 0x18 a b disp
  | .bgeu a b disp => encI 0x19 a b disp
  | .jal a disp => encJ 0x1A a disp
  | .jalr a b imm => encI 0x1B a b imm
  | .sig s => encI 0x1C 0 0 s
  | .recv a q => encQ 0x20 a q 0
  | .recvn a q => encQ 0x21 a q 0
  | .send a q => encQ 0x22 a q 0
  | .sendc a q tag => encQ 0x23 a q ((0 : BitVec 8) ++ tag)
  | .vconf a n b => encI 0x28 a 0 ((0 : BitVec 9) ++ n ++ b)
  | .vfetch disp => encJ 0x29 0 disp
  | .vloop a b c => encA 0x2A a b c 0 0
  | .fenceSv => encA 0x2B 0 0 0 0 1
  | .fenceVs => encA 0x2B 0 0 0 0 2
  | .fenceVv => encA 0x2B 0 0 0 0 3
  | .vsync => encA 0x2B 0 0 0 0 4
  | .msetl a b c => encA 0x2C a b c 0 0
  | .sconf b st => encI 0x30 0 b ((0 : BitVec 13) ++ st)
  | .sstep mask => encI 0x31 0 0 ((0 : BitVec 8) ++ mask)
  | .skick b st => encI 0x32 0 b ((0 : BitVec 13) ++ st)
  | .stwait a b st => encI 0x33 a b ((0 : BitVec 13) ++ st)
  | .sdrain st => encI 0x34 0 0 ((0 : BitVec 13) ++ st)
  | .dispq b ev box => encI 0x35 0 b (ev ++ (0 : BitVec 3) ++ box)
  | .evset b => encA 0x38 0 b 0 0 1
  | .evclr b => encA 0x38 0 b 0 0 2
  | .evwait b => encA 0x38 0 b 0 0 3
  | .cue b c => encA 0x3C 0 b c 0 1
  | .cuewait b => encA 0x3C 0 b 0 0 2
  | .rdcue a => encA 0x3C a 0 0 0 3
  | .xpost b c => encA 0x3D 0 b c 0 1
  | .xwait a b => encA 0x3D a b 0 0 2
  | .xcoll b c => encA 0x3D 0 b c 0 3
  | .ctlr a x => encI 0x3E a 0 ((0 : BitVec 4) ++ x)
  | .ctlw b x => encI 0x3E 0 b ((8 : BitVec 4) ++ x)
  | .ctlrVflags a => encI 0x3E a 0 0x0022
  | .ctlrFfe a => encI 0x3E a 0 0x0021
  | .ctlrPmbox a k => encI 0x3E a 0 ((0x01E0 : BitVec 13) ++ k)
  | .ctlwVflags b => encI 0x3E 0 b 0x8022
  | .ctlwFfe b => encI 0x3E 0 b 0x8021
  | .ctlwVbcnt b k => encI 0x3E 0 b ((0x1007 : BitVec 13) ++ k)
  | .ctlwSrseed b => encI 0x3E 0 b 0x8025
  | .ctlwXtab0 b => encI 0x3E 0 b 0x8023
  | .ctlwXtab1 b => encI 0x3E 0 b 0x8024
  | .ctlwEncore b => encI 0x3E 0 b 0x8030
  | .ctlwPmbox b k => encI 0x3E 0 b ((0x11E0 : BitVec 13) ++ k)
  | .vstop => encB 0x01 false 0 0 0 0
  | .vnop ch => encB 0x02 ch 0 0 0 0
  | .vsig s => encB 0x03 false 0 0 0 ((0 : BitVec 6) ++ s)
  | .vpsn h kd va => encV 0x04 h kd va 0 0 0
  | .vpclr h vd => encV 0x05 h vd 0 0 0 0
  | .mring sl => encB 0x06 false 0 (slField sl) 0 0
  | .vadd h vd va vb => encV 0x10 h vd va vb 0 0
  | .vaddImm h vd va imm => encV 0x10 h vd va 0 0 (x22Imm imm)
  | .vsub h vd va vb => encV 0x11 h vd va vb 0 0
  | .vsubImm h vd va imm => encV 0x11 h vd va 0 0 (x22Imm imm)
  | .vadds h vd va vb => encV 0x12 h vd va vb 0 0
  | .vaddsImm h vd va imm => encV 0x12 h vd va 0 0 (x22Imm imm)
  | .vsubs h vd va vb => encV 0x13 h vd va vb 0 0
  | .vsubsImm h vd va imm => encV 0x13 h vd va 0 0 (x22Imm imm)
  | .vmul h vd va vb => encV 0x14 h vd va vb 0 0
  | .vmulImm h vd va imm => encV 0x14 h vd va 0 0 (x22Imm imm)
  | .vmulh h vd va vb => encV 0x15 h vd va vb 0 0
  | .vmulhImm h vd va imm => encV 0x15 h vd va 0 0 (x22Imm imm)
  | .vmin h vd va vb => encV 0x17 h vd va vb 0 0
  | .vminImm h vd va imm => encV 0x17 h vd va 0 0 (x22Imm imm)
  | .vmax h vd va vb => encV 0x18 h vd va vb 0 0
  | .vmaxImm h vd va imm => encV 0x18 h vd va 0 0 (x22Imm imm)
  | .vand h vd va vb => encV 0x19 h vd va vb 0 0
  | .vandImm h vd va imm => encV 0x19 h vd va 0 0 (x22Imm imm)
  | .vor h vd va vb => encV 0x1A h vd va vb 0 0
  | .vorImm h vd va imm => encV 0x1A h vd va 0 0 (x22Imm imm)
  | .vxor h vd va vb => encV 0x1B h vd va vb 0 0
  | .vxorImm h vd va imm => encV 0x1B h vd va 0 0 (x22Imm imm)
  | .vsll h vd va vb => encV 0x1C h vd va vb 0 0
  | .vsllImm h vd va imm => encV 0x1C h vd va 0 0 (x22Imm imm)
  | .vsrl h vd va vb => encV 0x1D h vd va vb 0 0
  | .vsrlImm h vd va imm => encV 0x1D h vd va 0 0 (x22Imm imm)
  | .vsra h vd va vb => encV 0x1E h vd va vb 0 0
  | .vsraImm h vd va imm => encV 0x1E h vd va 0 0 (x22Imm imm)
  | .vmad h vd va vb vc => encV 0x16 h vd va vb vc 0
  | .vabs h vd va => encV 0x1F h vd va 0 0 0
  | .vneg h vd va => encV 0x20 h vd va 0 0 0
  | .vfadd h vd va vb => encV 0x30 h vd va vb 0 0
  | .vfsub h vd va vb => encV 0x31 h vd va vb 0 0
  | .vfmul h vd va vb => encV 0x32 h vd va vb 0 0
  | .vfma h vd va vb vc => encV 0x33 h vd va vb vc 0
  | .vfnma h vd va vb vc => encV 0x34 h vd va vb vc 0
  | .vfmin h vd va vb => encV 0x35 h vd va vb 0 0
  | .vfmax h vd va vb => encV 0x36 h vd va vb 0 0
  | .vfabs h vd va => encV 0x37 h vd va 0 0 0
  | .vfneg h vd va => encV 0x38 h vd va 0 0 0
  | .vfscl h vd va vb form => encV 0x39 h vd va vb 0 ((0 : BitVec 21) ++ bit1 form)
  | .vfrcp h vd va => encV 0x3A h vd va 0 0 0
  | .vfrsq h vd va => encV 0x3B h vd va 0 0 0
  | .vfexp2 h vd va => encV 0x3C h vd va 0 0 0
  | .vflog2 h vd va => encV 0x3D h vd va 0 0 0
  | .vcvt h vd va src sat rm => encV 0x50 h vd va 0 0 (x22Cvt src sat rm)
  | .vcvtx h vd va => encV 0x51 h vd va 0 0 (x22Cvt .u8 false .rne)
  | .vmxup h vd va rm => encV 0x52 h vd va 0 0 (x22Cvt .mx4 false rm)
  | .vmxpk h vd va src rm => encV 0x53 h vd va 0 0 (x22Cvt src false rm)
  | .vcmp h kd va vb cond => encV 0x60 h kd va vb 0 ((0 : BitVec 19) ++ cond.code)
  | .vfcmp h kd va vb cond => encV 0x61 h kd va vb 0 ((0 : BitVec 19) ++ cond.code)
  | .vwhile h kd gi gn uns => encV 0x62 h kd gi gn 0 ((0 : BitVec 21) ++ bit1 uns)
  | .kand h kd ka kb => encV 0x63 h kd ka kb 0 0
  | .kor h kd ka kb => encV 0x64 h kd ka kb 0 0
  | .kxor h kd ka kb => encV 0x65 h kd ka kb 0 0
  | .kandn h kd ka kb => encV 0x66 h kd ka kb 0 0
  | .knot h kd ka => encV 0x67 h kd ka 0 0 0
  | .kpop h gd ka => encV 0x68 h gd ka 0 0 0
  | .kfirst h gd ka => encV 0x69 h gd ka 0 0 0
  | .kmov h kd ka => encV 0x6A h kd ka 0 0 0
  | .vmxv h kd va => encV 0x6B h kd va 0 0 0
  | .vmov h vd va => encV 0x70 h vd va 0 0 0
  | .vbcast h vd ga => encV 0x71 h vd ga 0 0 0
  | .vbcastb h vd va src k => encV 0x72 h vd va 0 0 ((0 : BitVec 9) ++ k ++ src.code ++ (0 : BitVec 4))
  | .vgathr h vd va vb => encV 0x73 h vd va vb 0 0
  | .vperm h vd va vb => encV 0x74 h vd va vb 0 0
  | .vsldu h vd va vb n => encV 0x75 h vd va vb 0 ((0 : BitVec 6) ++ n)
  | .vsldd h vd va vb n => encV 0x76 h vd va vb 0 ((0 : BitVec 6) ++ n)
  | .vcmpr h vd va => encV 0x77 h vd va 0 0 0
  | .vexpd h vd va => encV 0x78 h vd va 0 0 0
  | .viota h vd form => encV 0x79 h vd 0 0 0 ((0 : BitVec 21) ++ bit1 form)
  | .vext ch et gd va gi =>
      encV 0x7A { cls := .ex, km := 0, kn := false, dt := false, ch, et } gd va gi 0 0
  | .vins ch et vd ga gi =>
      encV 0x7B { cls := .ex, km := 0, kn := false, dt := false, ch, et } vd ga gi 0 0
  | .vrsum h vd va => encV 0x80 h vd va 0 0 0
  | .vrmax h vd va => encV 0x81 h vd va 0 0 0
  | .vrmin h vd va => encV 0x82 h vd va 0 0 0
  | .vscan h vd va op => encV 0x83 h vd va 0 0 ((0 : BitVec 20) ++ op.code)
  | .vfrsum h vd va => encV 0x84 h vd va 0 0 0
  | .vfrmax h vd va => encV 0x85 h vd va 0 0 0
  | .vfrmin h vd va => encV 0x86 h vd va 0 0 0
  | .vfscan h vd va op => encV 0x87 h vd va 0 0 ((0 : BitVec 20) ++ op.code)
  | .vld h o vd vb disp => encV 0x90 h vd 0 vb 0 (x22Mem o 0 0 disp)
  | .vst h o vd vb disp => encV 0x91 h vd 0 vb 0 (x22Mem o 0 0 disp)
  | .vlds h o vd vb vc disp => encV 0x92 h vd 0 vb vc (x22Mem o 0 0 disp)
  | .vsts h o vd vb vc disp => encV 0x93 h vd 0 vb vc (x22Mem o 0 0 disp)
  | .vldx h o iw vd va vb disp => encV 0x94 h vd va vb 0 (x22Mem o 0 iw.code disp)
  | .vstx h o iw vd va vb disp => encV 0x95 h vd va vb 0 (x22Mem o 0 iw.code disp)
  | .vldff h o vd vb disp => encV 0x96 h vd 0 vb 0 (x22Mem o 0 0 disp)
  | .vldffStrided h o vd vb vc disp => encV 0x96 h vd 0 vb vc (x22Mem o 1 0 disp)
  | .vldffIndexed h o iw vd va vb disp => encV 0x96 h vd va vb 0 (x22Mem o 2 iw.code disp)
  | .vamo h o op iw ret vd va vb vc => encV 0xB0 h vd va vb vc (x22Amo o op.code iw ret 0)
  | .vamoo h o op iw ret vd va vb vc => encV 0xB1 h vd va vb vc (x22Amo o op.code iw ret 0)
  | .vldgl h o iw vd va vb => encV 0xB2 h vd va vb 0 (x22Amo o 0 iw false 0)
  | .vstsc h o iw kd vd va vb => encV 0xB3 h vd va vb 0 (x22Amo o 0 iw false kd)
  | .vsadd h o iw vd va vb => encV 0xB4 h vd va vb 0 (x22Amo o 0 iw false 0)
  | .mzero ch acc => encB 0xC0 ch (accField acc) 0 0 0
  | .mopa h acc va sl => encV 0xC1 h (accField acc) va (slField sl) 0 0
  | .mops h acc va sl => encV 0xC2 h (accField acc) va (slField sl) 0 0
  | .mread h acc va m0 rm =>
      encV 0xC3 h (accField acc) va 0 0 ((0 : BitVec 8) ++ m0 ++ (0 : BitVec 5) ++ rm.code)
  | .mwrite h acc va m0 => encV 0xC4 h (accField acc) va 0 0 ((0 : BitVec 8) ++ m0 ++ (0 : BitVec 8))
  | .msaveAcc ch o acc vc disp => encB 0xC5 ch (accField acc) 0 vc (x22Mem o 0 0 disp)
  | .msaveLatch ch o sl scale vc disp =>
      encB 0xC5 ch 0 (slField sl) vc (x22Mem o (if scale then 2 else 1) 0 disp)
  | .mloadAcc ch o acc vc disp => encB 0xC6 ch (accField acc) 0 vc (x22Mem o 0 0 disp)
  | .mloadLatch ch o sl scale vc disp =>
      encB 0xC6 ch 0 (slField sl) vc (x22Mem o (if scale then 2 else 1) 0 disp)
  | .vsend h va q tag => encV 0xD0 h 0 va (portField q) 0 ((0 : BitVec 15) ++ tag)
  | .vrecv h vd q => encV 0xD1 h vd 0 (portField q) 0 0
  | _ => .event

/-- The instruction a word decodes to, in the privileged state or not. -/
def decodeWords (priv : Bool) : Words → Except Cause Instr
  | .scalar w => decodeScalar priv w
  | .vector w => decodeVector w
  | .event => .error 0x01

end Sys2Proof
end

