-- ==== Sys2Proof/Machine/State.lean ====
section
/-!
DEFINITION. The state of one K960 package as plain data: processes, networks, tenants, tiles, channels, device
memory and its servers, Viaduct, the host functions, and the fuses (R1-R458). A field whose docstring says
MODEL is the model's own and no state of the spec.
-/

namespace Sys2Proof.Machine

/-- A finite map: keys strictly rising (DESIGN CHOICE, log 2). -/
abbrev AMap (α : Type) := List (Nat × α)

/-- A byte memory: addresses strictly rising, no byte zero; an unlisted address reads as 0 (DESIGN CHOICE, log 1)
(DESIGN CHOICE, log 2). -/
abbrev Memory := List Host.Cell

/-- A set of numbers, strictly rising. -/
abbrev NatSet := List Nat

/-! ## Processes -/

/-- The fields of a process descriptor (R28). -/
structure Desc where
  entry : Word
  lproc : Nat
  lx : Nat
  ly : Nat
  ldie : Nat
  prio : Nat
  /-- Initial register count divided by 4. -/
  vregs : Nat
  bufs : Nat
  rows : Nat
  accs : Nat
  sigchk : Bool
  encore : Bool
  fport : Nat
  fpen : Bool
  evbase : Nat
  evcnt : Nat
  spbase : Nat
  spsize : Nat
  arg : Word
  deriving DecidableEq, Repr

/-- The park reasons of R39. -/
inductive ParkReason where
  | channelRead | channelWrite | memoryReply | eventWait | cueWait | vectorDrain | transferWait | spanLatch
  deriving DecidableEq, Repr

/-- The states of a process (R39); a process saved Trapped keeps that (R42). -/
inductive PState where
  | dormant | ready | parked (r : ParkReason) | trapped | preempted (trapped : Bool) | retired
  deriving DecidableEq, Repr

/-- The trap registers EPC, TCAUSE, TADDR, TELEM, TINFO (R395-R399). -/
structure TrapRegs where
  epc : Word
  tcause : Word
  taddr : Word
  telem : Word
  tinfo : Word
  deriving DecidableEq, Repr

/-- Signature state (R416). -/
structure SigState where
  want : BitVec 16
  crc : BitVec 16
  start : Word
  opened : Bool
  landing : Bool
  deriving DecidableEq, Repr

/-- VGEOM (R187). -/
structure Geom where
  lrows : Nat
  nbufs : Nat
  nregs : Nat
  deriving DecidableEq, Repr

/-- The sticky flags of VFLAGS (R97). -/
structure Flags where
  nx : Bool
  uf : Bool
  of : Bool
  dz : Bool
  nv : Bool
  deriving DecidableEq, Repr

/-- The granted sizes of MSETL (R277). -/
structure Grant where
  m : Nat
  n : Nat
  k : Nat
  deriving DecidableEq, Repr

/-! ## Requests and replies of device memory -/

/-- A source of line requests (R299): a process, an engine for a stream of a process, the relay engines for a
transfer queue of a process (queue q for the packets, q + 8 for the reads of SRC) or (4) its collectives, a walk unit, a host function, the Prompter, or an
agent of another package. -/
inductive Source where
  | proc (pid : Nat) | engine (pid : Nat) (stream : Nat) | relay (pid : Nat) (queue : Nat) | walk (die unit : Nat)
  | fn (n : Nat) | prompter | remote (pkg agent : Nat)
  deriving DecidableEq, Repr

/-- Where a translated access goes (R311). -/
inductive Place where
  | phys (pa : Nat)
  | remote (pkg : Nat) (key : BitVec 12) (off : Nat)
  deriving DecidableEq, Repr

/-- A line request on its way to a server, or queued there (R298-R300). -/
structure Req where
  id : Nat
  src : Source
  /-- Physical address of its first byte. -/
  pa : Nat
  kind : ReqKind
  /-- Effective priority when it was sent (R300). -/
  prio : Nat
  /-- Its age: requests sent, or come to their servers, before it was sent and, at a server, before it came there
  (R300). -/
  age : Nat
  deriving DecidableEq, Repr

/-- The reply to a line request. -/
structure Reply where
  id : Nat
  src : Source
  bytes : List Byte
  /-- Poison of the word that holds each byte. -/
  poison : List Bool
  /-- The cause of a reply error. -/
  cause : Option Cause
  /-- A conditional write or CAS succeeded. -/
  ok : Bool
  /-- Flags the server raised (R323). -/
  flags : Flags
  deriving DecidableEq, Repr

/-- The memory operation of a parked scalar word (R113). -/
inductive Pend where
  /-- A release waits for earlier scratchpad stores (R366, R368). -/
  | hold
  /-- Waiting for a translation of the page of this address, with its access kind (R314). -/
  | walk (va : Nat) (kind : Nat)
  /-- Request `id` has been sent. -/
  | sent (id : Nat)
  /-- A scratchpad read waits for its bank, or a scratchpad store for a place in its FIFO (R242, R246). -/
  | spad
  /-- The reply has arrived, or the bank has been granted. -/
  | done (r : Reply)
  deriving DecidableEq, Repr

/-! ## Channels -/

/-- The parts of a token (R150): 8 or 64 data bytes, a tag, and a poison bit per 8-byte word. -/
structure Token where
  data : List Byte
  tag : Byte
  poison : List Bool
  deriving DecidableEq, Repr

/-- An end of a channel (R147, R159, R446, R425). -/
inductive End where
  | proc (pid : Nat) (port : Nat)
  | host (fn : Nat) (slot : Nat)
  | fault (pid : Nat)
  | remote (pkg : Nat)
  deriving DecidableEq, Repr

/-- A producer port of a channel (R154, R155, R176). -/
structure Producer where
  src : End
  /-- Credits at binding. -/
  share : Nat
  credits : Nat
  /-- Tokens launched and not yet written into the buffer, oldest first. -/
  flight : List Token
  /-- Credits returned and not yet at the producer. -/
  returning : Nat
  /-- Credits granted by spill growth and not yet at the producer (R178). -/
  growing : Nat
  /-- Tokens sent, and credits received: 32-bit counters (R176). -/
  sent : BitVec 32
  received : BitVec 32
  deriving DecidableEq, Repr

/-- What a channel carried over Viaduct keeps for one package it leads to (R425). -/
structure Circuit where
  pkg : Nat
  /-- Next sequence number to send and to accept. -/
  sendSeq : BitVec 32
  recvSeq : BitVec 32
  creditSend : BitVec 32
  creditRecv : BitVec 32
  /-- Out-of-order tokens and credits held in the context. -/
  heldTokens : List CircToken
  heldCredits : List CircCredit
  /-- Inheritance carried by control flits, to take effect at the next frame boundary (R174). -/
  inherited : Nat
  arriving : Option Nat
  /-- The consumer, at that package, has retired (R161). -/
  retired : Bool
  deriving DecidableEq, Repr

/-- A channel (R147-R162, R176-R179) (DEDUCED, log 42). -/
structure Chan where
  /-- Handle: INDEX is its key in the map of channels, GEN here (R148). -/
  gen : BitVec 12
  /-- Network it belongs to. -/
  net : Nat
  /-- Channel number in the image. -/
  number : Nat
  wide : Bool
  merge : Bool
  /-- Slots on the tile, and doublings so far (R178). -/
  slots : Nat
  doublings : Nat
  spillPages : Nat
  /-- Reserved units (R387). -/
  resv : Nat
  consumer : End
  prods : List Producer
  /-- Tokens in the on-tile buffer, then in spill, oldest first, with the producer that sent each. -/
  buffer : List (Nat × Token)
  spill : List (Nat × Token)
  written : BitVec 32
  consumed : BitVec 32
  /-- Its circuits, one for each package an end of it has moved to or come from (R162, R425). -/
  circuits : List Circuit
  deriving DecidableEq, Repr

/-! ## Vector work -/

/-- The binding of a stream head and its strip, as a VFETCH or an iteration records them (R339, R358): the stream,
the strip, whether it loads (MODE 1), the SCONF it belongs to, and the buffer group the strip lives in (R337). -/
structure HeadRec where
  stream : Nat
  strip : Nat
  load : Bool
  conf : Nat
  group : Nat
  deriving DecidableEq, Repr

/-- A snapshot a VFETCH or VLOOP takes (R189, R277, R339). -/
structure Snap where
  g : Vector Word 32
  /-- Registers whose value a pending vector write will deliver, with the entry that writes each (R189). -/
  pendG : List (Nat × Nat)
  grant : Grant
  heads : List (Option HeadRec)
  encore : Bool
  deriving DecidableEq, Repr

/-- What an entry of the block queue is. -/
inductive EntryKind where
  | block
  /-- A loop task that is not yet registered: trip count, STEP, WAIT and SET masks, first strips. -/
  | loop (trip : Nat) (step : Nat) (wait set : Nat) (strip0 : List Nat)
  /-- FENCE.VV (R375). -/
  | fence
  deriving DecidableEq, Repr

/-- Signature state of a vector block (R416). -/
structure VSig where
  checking : Bool
  want : BitVec 16
  crc : BitVec 16
  deriving DecidableEq, Repr

/-- An entry of the block queue, or a running block (R189, R356, R375). -/
structure Entry where
  id : Nat
  kind : EntryKind
  addr : Word
  /-- Vector program counter. -/
  vpc : Word
  snap : Snap
  sig : VSig
  /-- Its VSTOP has been reached: it leaves the queue once its convoys have retired (R189). -/
  stopped : Bool
  deriving DecidableEq, Repr

/-- A loop task registered and not complete (R357, R358) (DEDUCED, log 79). -/
structure Task where
  id : Nat
  trip : Nat
  iter : Nat
  step : Nat
  wait : Nat
  set : Nat
  strip0 : List Nat
  /-- An iteration is running. -/
  running : Bool
  captured : Bool
  body : Entry
  deriving DecidableEq, Repr

/-- One thing a member of a convoy writes among the process's registers (R195): an element of `size` bytes or a
`.mx4` slot of the register whose first row is `base`, the unused end of a row, poison of bytes whose value stays,
mask bits, mask bits cut off at VLMAX, flags, a replay counted (R202). -/
inductive VWrite where
  | elem (base size e x : Nat) (psn : Bool)
  | slot (base u x : Nat) (psn : Bool)
  | tail (row : Nat)
  | mark (row off n : Nat) (psn : Bool)
  | bits (k : KReg) (l : List (Nat × Bool))
  | clip (k : KReg) (n : Nat)
  | flags (f : Flags)
  | replay
  deriving DecidableEq, Repr

/-- The register results of one member's group that the registers do not show yet (R193, R200). -/
structure Held where
  member : Nat
  group : Nat
  writes : List VWrite
  deriving DecidableEq, Repr

/-- A memory word that a store instruction has written in part: the member, the word's number, the bytes written and
the poison of each (R263). -/
structure PartWord where
  member : Nat
  word : Nat
  bytes : BitVec 8
  poison : BitVec 8
  deriving DecidableEq, Repr

/-- A request that a convoy has sent for its group: which member, unit and piece it serves; `store` for one whose
reply is an acknowledgement and no more; and the reply, once it has arrived. -/
structure UReq where
  id : Nat
  group : Nat
  member : Nat
  unit : Nat
  piece : Nat
  store : Bool
  remote : Bool
  reply : Option Reply
  deriving DecidableEq, Repr

/-- A lane error that meets the encore comparison of a convoy (R202): the member and the group it strikes, the units
of the group whose two results differ, and whether the replay differs again. -/
structure Strike where
  member : Nat
  group : Nat
  diff : List Nat
  again : Bool
  deriving DecidableEq, Repr

/-- A convoy that has started (R193, R197-R201). -/
structure Convoy where
  id : Nat
  /-- Entry or task it belongs to. -/
  entry : Nat
  task : Bool
  addr : Word
  members : List Instr
  snap : Snap
  /-- XTAB0, XTAB1 and SRSEED as they stood when it started (R99, R218). -/
  xtab0 : Word
  xtab1 : Word
  seed : Word
  /-- Group and member the convoy stands at. -/
  group : Nat
  member : Nat
  /-- Requests of the groups that are not complete. -/
  reqs : List UReq
  /-- Stores of complete groups without their acknowledgement, those to other packages by themselves (R363). -/
  acks : List Nat
  farAcks : List Nat
  /-- General registers to be written at retirement (R190). -/
  gw : List (Nat × Word)
  /-- The first failing unit each VLDFF has met, and those that have passed an active unit (R268). -/
  ffe : List (Nat × Nat)
  begun : List Nat
  /-- Results of groups carried out ahead of others, and groups below `group` still to be carried out (R193, R368). -/
  held : List Held
  left : List (Nat × Nat)
  /-- Words its stores have written in part (R263), and the last entry each has made in a FIFO, by 4 member + slice
  (R246). -/
  parts : List PartWord
  lines : AMap Nat
  /-- Every request the convoy will make has been sent (R265). -/
  sent : Bool
  /-- Every member has performed its last group. -/
  finished : Bool
  /-- Stopped at `group`, a restart point (R200, R201). -/
  stopped : Bool
  /-- A matrix convoy: `member` is its next member (R278-R280). -/
  matrix : Bool
  /-- The lane error it meets (R202). -/
  strike : Option Strike
  deriving DecidableEq, Repr

/-! ## Streams, transfers, cue slots (ch. 11, 13, 15) -/

/-- The scalar view of a stream context's state (R333). -/
inductive StreamMode where
  | unconfigured | copy | load | store
  deriving DecidableEq, Repr

/-- A kicked transfer (R341). -/
structure Kick where
  id : Nat
  offset : Nat
  /-- The engine has acquired the kick word (R343). -/
  started : Bool
  /-- Copy: the next element. -/
  next : Nat
  /-- Requests that had been sent before the kick: its age (R345). -/
  age : Nat
  deriving DecidableEq, Repr

/-- A strip the step count has recorded or passed, by the state of its group (R340). -/
structure Strip where
  index : Nat
  /-- Filled (MODE 1) or handed back empty (MODE 2). -/
  available : Bool
  /-- MODE 1: elements that have arrived, for every field. -/
  filled : Nat
  released : Bool
  deriving DecidableEq, Repr

/-- A stream context (R332-R344). -/
structure StreamCtx where
  mode : StreamMode
  /-- SCONFs and SDRAINs so far: the number of the present record. -/
  conf : Nat
  /-- The five doublewords of the record. -/
  base : Word
  aux : Word
  stride : Word
  ctrl : Word
  bits : Word
  /-- LROWS at SCONF (R337). -/
  lrows : Nat
  /-- P of R338. -/
  perm : List Nat
  kicks : List Kick
  kicked : Bool
  /-- Last identifier assigned (R341). -/
  lastId : Nat
  /-- Step count (R340). -/
  steps : Nat
  strips : List Strip
  /-- Strips below this index have been released and dealt with. -/
  done : Nat
  /-- Watermark word (R342). -/
  fault : Bool
  watermark : Nat
  /-- The fault met and its address, until its mailbox store (R344). -/
  faulting : Option (Cause × Word × Nat)
  /-- Strips at or above this index never become available (R344). -/
  deadFrom : Option Nat
  /-- The groups it names have been zeroed, and a store stream's first strips may be handed back (R337, R340). -/
  opened : Bool
  /-- Strips from this index on were discarded by an SDRAIN (R350, R357). -/
  limit : Option Nat
  deriving DecidableEq, Repr

/-- A work request posted with XPOST (R433, R434). -/
structure Post where
  number : Nat
  src : Word
  dst : Word
  len : Nat
  tqh : BitVec 32
  kind : Nat
  port : Nat
  tq : Nat
  tsel : Nat
  value : Nat
  fired : Bool
  /-- DST as it was translated at the firing: the package, and its runs of bytes, each with KEY and offset (R435). -/
  pkg : Nat
  runs : List (Nat × BitVec 12 × Nat)
  /-- Bytes sent, and the offsets of the packets sent and not yet acknowledged. -/
  sent : Nat
  unacked : List Nat
  done : Bool
  /-- The number the next vector entry had at the XPOST: entries below it are earlier (R434). -/
  after : Nat := 0
  /-- Bytes of the next packet read so far, with their poison. -/
  got : List Byte := []
  gotPsn : List Bool := []
  deriving DecidableEq, Repr

/-- A transfer queue xq0-xq3 (R431, R432). -/
structure XQueue where
  handle : BitVec 32
  /-- Posts made. -/
  posted : Nat
  doneCount : Nat
  arrived : Nat
  fault : Option (Nat × Cause)
  posts : List Post
  deriving DecidableEq, Repr

/-- What a relay engine does next with the chunk of a collective (R440). -/
inductive RelayPhase where
  | read | exchange | final | write
  deriving DecidableEq, Repr

/-- A collective the process has issued and that is not complete (R439, R440). -/
structure Coll where
  number : Nat
  et : BitVec 4
  op : BitVec 2
  count : Nat
  addr : Word
  started : Bool
  prevOk : Bool
  nextOk : Bool
  /-- The chunk at hand, what is done with it, and its bytes so far, with their poison: this package's own while they
  are read, then the result while it is written. -/
  chunk : Nat
  phase : RelayPhase
  bytes : List Byte
  poison : List Bool
  written : Nat
  /-- Bytes of the write that is under way. -/
  asked : Nat := 0
  deriving DecidableEq, Repr

/-- An armed cue slot (R382-R384): its time and control word, and the number of scratchpad stores the process had
made at the CUE, which the action's release covers. -/
structure CueSlot where
  time : Word
  ctrl : Word
  after : Nat
  /-- Cue time at which it was armed, or its process last came back to a tile: it is not due before (R383, R385). -/
  since : Nat
  deriving DecidableEq, Repr

/-- The park of a process (R39, R113): its reason, the word it is parked on, and the signature state that word
leaves once it completes (R416). -/
structure Park where
  reason : ParkReason
  instr : Instr
  sigAfter : SigState
  deriving DecidableEq, Repr

/-- A token waiting to be launched (R165): producer port, the token, and the scratchpad stores (numbers below
`after`) that must leave their FIFOs first. -/
structure Launch where
  chan : Nat
  prod : Nat
  token : Token
  after : Nat
  deriving DecidableEq, Repr

/-- A query to a box office without its answer yet (R329, R330). -/
structure Query where
  office : Nat
  /-- Answer address and event bit of the tile. -/
  addr : Nat
  ev : Nat
  /-- The answer word, once given; then the number of its scratchpad store. -/
  answer : Option Word
  store : Option Nat
  deriving DecidableEq, Repr

/-- A process (R28, R39, R40, R118, R139, R409). -/
structure Proc where
  tenant : Nat
  /-- Network it belongs to: key in the map of networks. -/
  net : Nat
  desc : Desc
  /-- Logical die after R36. -/
  ldie : Nat
  /-- Physical tile and barrel slot (R35). -/
  tile : Nat
  slot : Nat
  st : PState
  park : Option Park
  /-- A capture or a kill waits for it: it starts no further word, scalar or vector (R115, R411). -/
  frozen : Bool
  /-- The condition of the parked word has been met: it completes at its next issue (R114). -/
  woken : Bool
  pend : Option Pend
  /-- Records a word reads in several accesses: the bytes read so far (R346, R433). -/
  record : List Byte
  pc : Word
  g : Vector Word 32
  /-- PSTAT.PRIV: Prompter service code (R117). -/
  priv : Bool
  trap : TrapRegs
  /-- Effective priority (R47, R142). -/
  eff : Nat
  sigctl : Bool
  sig : SigState
  /-- MODEL: the signature state before the word being executed, restored when it traps or parks (R416). -/
  sigOld : SigState
  vflags : Flags
  ffe : Word
  xtab0 : Word
  xtab1 : Word
  srseed : Word
  encoreEn : Bool
  replays : BitVec 32
  vbcnt : Vector (BitVec 32) 8
  geom : Geom
  /-- Vector register rows of the budget, 512 bytes each; a row not listed is zero (R183). -/
  rows : AMap (BitVec 4096)
  /-- Poison bits of a row's bytes (R185). -/
  rowPoison : AMap (BitVec 512)
  /-- Mask registers k1 to k23 as bit sets (R186). -/
  masks : AMap Nat
  /-- Accumulator elements, element (m, n) of tile d at 4096 d + 64 m + n, and their poison (R271). -/
  acc : AMap (BitVec 56)
  accPoison : NatSet
  /-- Span latches: image and scale side, byte b of latch B at 8192 B + b; poison by word (R273). -/
  latch : Memory
  latchPoison : NatSet
  /-- The span-latch claim (R274). -/
  claim : Bool
  /-- Rounds of each latch (R291), and whether an MRING of it is waiting. -/
  rounds : Nat × Nat
  ringWait : Option Nat
  grant : Grant
  queue : List Entry
  tasks : List Task
  convoys : List Convoy
  /-- Number the next entry, task or convoy takes. -/
  nextId : Nat
  /-- General registers pending a vector write, with the entry that writes each (R190). -/
  pending : List (Nat × Nat)
  streams : Vector StreamCtx 8
  /-- Bound transfers that have ended for the scalar stream and that the engine has not finished, by stream, oldest first
  (R333, R341). -/
  closing : List (Nat × StreamCtx)
  cue : Vector (Option CueSlot) 4
  /-- SEND slots that have fired and wait for a credit (R384): port and token. -/
  cueWait : List (Nat × Launch)
  /-- Ports q0-q15: the channel each is bound to, and true for a producer (R147). -/
  ports : AMap (Nat × Bool)
  launches : List Launch
  queries : List Query
  xq : Vector XQueue 4
  /-- Ports with an unfired KIND-1 trigger: port, queue, post (R435). -/
  triggers : List (Nat × Nat × Nat)
  /-- COLL, XCOLLs issued and collectives (R431, R439, R440). -/
  coll : Nat
  collIssued : Nat
  colls : List Coll
  collFault : Option (Nat × Cause)
  /-- What has arrived for collectives not that far yet (R438, R440). -/
  heldDigests : List DigestMsg
  heldMarkers : List (Nat × Cause)
  heldChunks : List ChunkMsg
  /-- Server reservation units, and those the next frame boundary puts in force (R301). -/
  resvUnits : Nat
  resvNext : Nat
  /-- The region saved by a capture: bytes and poisoned words, by tile-local address (R413). -/
  saved : Option (Memory × NatSet)
  /-- A word of the saved context reads back poisoned (R412). -/
  ctxLost : Bool
  /-- The event window saved by a capture (R360), over the tile's bits. -/
  savedEvents : BitVec 256
  /-- The region is kept on its tile (R413). -/
  kept : Bool
  savePages : Nat
  /-- The package the process has been moved to, and the ends it took along: channel, 0 for the consumer or k + 1 for
  producer k (R162). -/
  moved : Option Nat
  movedEnds : List (Nat × Nat)
  /-- Scratchpad stores entered in FIFOs so far, and device stores without acknowledgement. -/
  storeSeq : Nat
  acks : List Nat
  deriving DecidableEq, Repr

/-! ## Networks and tenants -/

/-- Network states (R44). -/
inductive NetState where
  | created | running | held | completed
  deriving DecidableEq, Repr

/-- A span ring (R275): its members' processes in ring order. -/
structure Ring where
  members : List Nat
  deriving DecidableEq, Repr

/-- The binding of a network's collective group (R438). -/
structure CollBind where
  digest : CollDigest
  rank : Nat
  proc : Nat
  deriving DecidableEq, Repr

/-- A network (R34, R44, R449, R51). -/
structure Net where
  tenant : Nat
  /-- Network number and generation (R449). -/
  number : Nat
  gen : Nat
  st : NetState
  /-- Why it is held: the state it returns to is Running. -/
  thermal : Bool
  /-- Processes by LPROC: key in the map of processes. -/
  procs : List Nat
  chans : List Nat
  /-- Box offices allotted, in record order, with the image's counts (R82, R328). -/
  offices : List (Nat × Nat)
  rings : List Ring
  signature : Word
  coll : Option CollBind
  /-- Tokens discarded (R43), and left in channels at completion (R44). -/
  discarded : Nat
  left : Nat
  killed : Bool
  /-- Cue deadline at which named processes are captured: deadline, LPROC or 0xFFF, save the region (R411). -/
  deadline : Option (Nat × Nat × Bool)
  tiles : List Nat
  deriving DecidableEq, Repr

/-- Tenant quotas (R31). -/
structure Quota where
  maxproc : Nat
  maxtiles : Nat
  maxchan : Nat
  spill : Nat
  resv : Nat
  maxnets : Nat
  priomax : Nat
  deriving DecidableEq, Repr

/-- A token of a fault record; `discard` marks the notice word of a kind of discarded host accesses, whose count is the
function's when the token is delivered (R403, R444). -/
structure FaultTok where
  word : Word
  discard : Option Nat
  deriving DecidableEq, Repr

/-- A tenant (R31, R402, R403). -/
structure Tenant where
  fn : Nat
  quota : Quota
  /-- Root of its page table (R306). -/
  root : Nat
  /-- Physical extents that hold its page tables and its pages: base and bytes. -/
  tables : List Nat
  /-- Generation each network number had last (R449). -/
  gens : AMap Nat
  /-- Fault record: tokens queued, then the reserve of records that did not fit (R403). -/
  faultq : List FaultTok
  reserve : List (List FaultTok)
  deriving DecidableEq, Repr

/-! ## Tiles -/

/-- Slice states (R252-R256). -/
inductive SliceState where
  | normal | sweeping (bank swept : Nat) | degraded (bank : Nat) | failed (bank : Nat)
  deriving DecidableEq, Repr

/-- An open entry of the stale-row table: row, and delta over data and poison (R245). A parity update is one
step of the model, so no entry is seen applying. -/
structure Stale where
  row : Nat
  delta : BitVec 512
  pdelta : BitVec 8
  deriving DecidableEq, Repr

/-- A line entry of a store FIFO (R246): number among the process's stores, line address, enabled bytes, the
bytes and the poison of each word; `vec` for a vector or matrix store, `rel` for a release, which waits for
every store of the process before it (R368); the words that its instruction has now written whole (R263). -/
structure SpadStore where
  seq : Nat
  line : Nat
  enable : BitVec 64
  bytes : BitVec 512
  poison : BitVec 8
  vec : Bool
  rel : Bool
  whole : BitVec 8 := 0
  deriving DecidableEq, Repr

/-- A scratchpad slice (R239, R244-R259) (DEDUCED, log 79). -/
structure Slice where
  st : SliceState
  stale : List Stale
  /-- Correctable-error counts of banks 0-8 and their thresholds (R251). -/
  cec : Vector (BitVec 16) 9
  threshold : Vector Nat 9
  /-- The sweep step has waited 14 cycles (R253). -/
  promoted : Bool
  deriving DecidableEq, Repr

/-- Result of a walk: a leaf or a cause with its level (R307-R316). -/
inductive Leaf where
  | page (size : Nat) (rd w x : Bool) (place : Place)
  | bad (cause : Cause) (level : Nat)
  deriving DecidableEq, Repr

/-- A TLB entry: virtual page base and its leaf (R313). -/
structure TlbEntry where
  vpage : Nat
  leaf : Leaf
  deriving DecidableEq, Repr

/-- A move of a tile's sequencer: a started convoy goes on, an entry's next convoy starts, or a fence entry is done with
(R197, R375). -/
inductive VMove where
  | resume (cid : Nat)
  | start (id : Nat) (task : Bool)
  | fence (id : Nat)
  deriving DecidableEq, Repr

/-- A tile (R6, R111, R145, R182, R239-R259, R313, R352, R357). -/
structure Tile where
  cycle : Nat
  pmbox : Vector Word 8
  /-- Writes not yet visible: register, value, first cycle at which it is seen (R116). -/
  pmboxNew : List (Nat × Word × Nat)
  spad : Memory
  spadPoison : NatSet
  /-- Understudy rows, byte b of row r of slice s at 65536 s + 64 r + b, and the poison of their words. -/
  under : Memory
  underPoison : NatSet
  /-- Words with a latent error (true: uncorrectable); data word A / 8, then understudy words from 262144. -/
  errors : AMap Bool
  slices : Vector Slice 4
  /-- Understudy words that a sweep could not form (R252). -/
  unformed : NatSet
  /-- Banks reported to the Prompter, whose count has reached its threshold in a sweeping or degraded slice: slice and
  bank (R251). -/
  reported : List (Nat × Nat)
  /-- Store FIFOs by process and slice, at 4 pid + slice (R246). -/
  fifos : AMap (List SpadStore)
  events : BitVec 256
  /-- The tile's tenant while it holds processes or uncleared state (R32). -/
  owner : Option Nat
  withdrawn : Bool
  tlb : List TlbEntry
  /-- Pages whose misses are outstanding (R314), and those of them that a fetch, the vector unit or an engine waits for. -/
  misses : NatSet
  wanted : NatSet := []
  /-- What walks have returned for such pages that name no page: met by the access that waits (R316). -/
  denied : List (Nat × Leaf) := []
  /-- Convoys the matrix unit holds, oldest first: process and convoy (R278). -/
  matrix : List (Nat × Nat)
  /-- Bodies the loop buffer holds: process, task, words (R357). -/
  loops : List (Nat × Nat × Nat)
  /-- What the sequencer has found ready and not yet started: process, move and the address of its convoy, those found
  together in one list, the earliest first (R197). -/
  asking : List (List (Nat × VMove × Word))
  deriving DecidableEq, Repr

/-! ## Servers, walks, box offices -/

/-- A memory server (R300-R305, R325, R326). -/
structure Server where
  correctable : BitVec 32
  uncorrectable : BitVec 32
  /-- Line accesses granted in this frame to each holder of a reservation (R389). -/
  granted : AMap Nat
  /-- Links: line and source, oldest first (R325). -/
  links : List (Nat × Source)
  /-- Refresh window: rows refreshed, and the column scrubbed (R304). -/
  refreshed : Nat
  deriving DecidableEq, Repr

/-- A pending walk of a die (R314). -/
structure Walk where
  tenant : Nat
  vpage : Nat
  tiles : List Nat
  prio : Nat
  /-- The walk unit that has taken it; the level, the table whose entry the unit reads, and the SIZE of the leaf whose
  run's first leaf it reads (R310). -/
  unit : Option Nat := none
  level : Nat := 1
  table : Nat := 0
  run : Option Nat := none
  /-- Its tenant's walk caches have been emptied since: it is to begin again (R315). -/
  again : Bool := false
  /-- The walk unit has read its entries. -/
  result : Option Leaf
  deriving DecidableEq, Repr

/-- A compute die (R3, R314). -/
structure Die where
  walks : List Walk
  /-- Walk cache: tenant, level and index path, table named (R314). -/
  cache : List (Nat × Nat × Nat × Nat)
  deriving DecidableEq, Repr

/-- A box office (R328): its network, count C and next ticket n. -/
structure Office where
  net : Option Nat
  count : Nat
  next : Nat
  /-- Queries waiting, oldest first, by process. -/
  waiting : List Nat
  deriving DecidableEq, Repr

/-! ## Viaduct -/

/-- An end of a channel that moves with its process to another package: what that package is told of it (R162). -/
structure MovedEnd where
  handle : BitVec 32
  number : Nat
  wide : Bool
  merge : Bool
  resv : Nat
  slots : Nat
  doublings : Nat
  /-- Credits at binding, of every producer. -/
  shares : List Nat
  /-- The port of the process; 0 for the consumer, k + 1 for producer k. -/
  port : Nat
  which : Nat
  /-- A producer's credits and counters; tokens consumed, and those the channel's producers have sent. -/
  credits : Nat
  sent : BitVec 32
  received : BitVec 32
  consumed : BitVec 32
  deriving DecidableEq, Repr

/-- A packet or control message this package has sent (R423-R440) (DEDUCED, log 53). -/
inductive Packet where
  | token (pkg : Nat) (t : CircToken)
  | credit (pkg : Nat) (c : CircCredit)
  | inherit (pkg : Nat) (handle : BitVec 32) (prio : Nat)
  | snap (pkg : Nat) (handle : BitVec 32) (far : FarEnd)
  | request (pkg : Nat) (r : RemReq)
  | reply (pkg : Nat) (id : Nat) (r : RemRep)
  | message (pkg : Nat) (m : MsgPkt)
  | msgReply (pkg : Nat) (srcQ : BitVec 32) (a : PktAck)
  | digest (pkg : Nat) (tag : BitVec 32) (m : DigestMsg)
  | marker (pkg : Nat) (tag : BitVec 32) (n : Nat) (cause : Cause)
  | chunk (pkg : Nat) (tag : BitVec 32) (m : ChunkMsg)
  | forward (pkg : Nat) (payload : List Byte)
  | nakFlit (port seq : Nat)
  | nakBlock (port block : Nat)
  | nakStale (handle : BitVec 32)
  | nakRetry (handle : BitVec 32)
  | bulk (pkg : Nat) (key : BitVec 12) (ports : Nat)
  | block (port : Nat) (key : BitVec 12) (b : BulkBlock)
  | moved (pkg : Nat) (lproc : Nat) (e : MovedEnd)
  deriving DecidableEq, Repr

/-- A Viaduct port (R422-R424). -/
structure VPort where
  up : Bool
  /-- In bulk framing for a SNAPSHOT of this package, with the registration the blocks are written to; and for one of the
  package at the other end, with the registration here. -/
  bulk : Option (BitVec 12)
  farBulk : Option (BitVec 12) := none
  /-- Next flit sequence number expected. -/
  recvSeq : Nat
  /-- The flits of the packet that is arriving (R423). -/
  packet : List (List Byte) := []
  deriving DecidableEq, Repr

/-- The copy of a SNAPSHOT under way (R424, R454): its target, its ports, the next block, and those NAKed. -/
structure BulkCopy where
  pkg : Nat
  key : BitVec 12
  ports : List Nat
  next : Nat
  again : List Nat
  deriving DecidableEq, Repr

/-- A registration (R426, R429). -/
structure Reg where
  tenant : Nat
  gen : BitVec 12
  base : Nat
  pages : Nat
  atomic : Bool
  write : Bool
  read : Bool
  /-- Tenants allowed, one bit each. -/
  allowed : BitVec 32
  revoking : Bool
  revoked : Bool
  deriving DecidableEq, Repr

/-- An import (R427): tenant, package, key and the generation recorded. -/
structure Import where
  tenant : Nat
  pkg : Nat
  key : BitVec 12
  gen : BitVec 12
  deriving DecidableEq, Repr

/-- The kind of context an entry of the context cache holds (R430). -/
inductive Ctx where
  | circuit (chan : Nat) | imported (tenant pkg : Nat) (key : BitVec 12) | registration (key : Nat) | queue (handle : Nat)
  deriving DecidableEq, Repr

/-- A remote request of this package without its reply (R427, R430). -/
structure RemotePend where
  pkg : Nat
  src : Source
  req : RemReq
  /-- The packet, where it is one of a transfer (R435). -/
  msg : Option MsgPkt
  retries : Nat
  /-- NAKed retry and not yet resent. -/
  waiting : Bool
  /-- Not yet sent: its import's context is being fetched (R430). -/
  unsent : Bool := false
  deriving DecidableEq, Repr

/-- A remote request accepted here and not yet performed (R427, R429). -/
structure Accepted where
  key : BitVec 12
  pkg : Nat
  id : Nat
  /-- The line request that performs it, or a part of it. -/
  req : Nat
  /-- The packet, where it is one of a transfer (R436). -/
  msg : Option MsgPkt
  deriving DecidableEq, Repr

/-- A message being reassembled (R436). -/
structure Message where
  pkg : Nat
  srcQ : BitVec 32
  post : Nat
  tqh : BitVec 32
  len : Nat
  got : Nat
  deriving DecidableEq, Repr

/-! ## Host functions -/

/-- A host-end slot (R446): the channel it is bound to, and whether the host produces. -/
structure HostSlot where
  chan : Nat
  hostProduces : Bool
  deriving DecidableEq, Repr

/-- A notice of discarded host accesses not yet delivered (R444): kind, count, offset of the first. -/
structure Discard where
  kind : Nat
  count : Nat
  off : Nat
  deriving DecidableEq, Repr

/-- A command that has started and waits before it can reply (R429, R315, R411, R115). -/
structure Busy where
  header : Word
  args : List Word
  /-- Requests sent before it that it must see performed, by age. -/
  seenAge : Nat
  /-- Processes a capture or kill waits for; or the physical page to be freed. -/
  held : List Nat
  /-- A function reset has come since: its reply is discarded (R457). -/
  mute : Bool
  deriving DecidableEq, Repr

/-- What a function has posted and the port has not performed (R447): a window write, with the requests of its pieces once
they are sent; a write of the MSI-X table; a token for the channel of an inlet; a token for CMDIN. -/
inductive Posted where
  | window (va off : Nat) (bytes : List Byte) (poison : Bool) (ids : Option (List Nat))
  | bar0 (off : Nat) (bytes : List Byte)
  | token (chan prod : Nat) (t : Token)
  | command (t : Token)
  deriving DecidableEq, Repr

/-- A PCIe function (R442-R450): function f of port p is number 33 p + f. -/
structure Fn where
  tenant : Option Nat
  ovr : BitVec 16
  badw : BitVec 16
  /-- Command tokens in CMDIN, oldest first: data, tag, poison. -/
  cmdin : List Token
  cmdCredits : Nat
  reply : List Token
  replyWait : List (List Token)
  fault : List Token
  slots : AMap HostSlot
  window : Option Nat
  busy : Option Busy
  discards : List Discard
  /-- MSI-X table and other BAR0 bytes the host writes (R442), and pending bits. -/
  msix : Memory
  pba : BitVec 20
  /-- Vectors whose messages have been sent, oldest first. -/
  irqs : List Nat
  /-- Posted writes in the order received; and window reads, by the requests of their pieces, with what has come. -/
  posted : List Posted := []
  reads : List (List (Nat × Option (List Byte × Bool))) := []
  /-- Tokens for FAULTOUT of a function without a tenant. -/
  faultWait : List Token := []
  deriving DecidableEq, Repr

/-- What a host access got back (R444, R445, R447, R455). -/
inductive Completion where
  | data (bytes : List Byte) (poisoned : Bool)
  | unsupported
  | configRetry
  | configDone
  deriving DecidableEq, Repr

/-! ## The package -/

/-- The fuses, all that a loss of power keeps (R4, R257, R455, R456). -/
structure Fuses where
  bootCount : Nat
  /-- Banks fused as retired: 36 T + 9 slice + bank. -/
  banks : NatSet
  deriving DecidableEq, Repr

/-- What the machine does next: one issue turn of a tile, one event or command, the passing of time, the arrival of
a request of the mesh at its server (R11, R111); or something from outside the rules: the Prompter installs service
code in a captured process's slot (R117) or writes a mailbox register (R116), an error strikes a scratchpad word
(R247) or a half-line of device memory (R302), `lost` for an uncorrectable one; a lane error is to strike the next
convoy of a process in encore mode (R202); an end of a channel comes from another package to a process here (R162), or a
token or credit of a circuit comes back NAKed, stale or to be tried again (R425, R430) (DEDUCED, log 6). -/
inductive Turn where
  | issue (tile : Nat)
  | event (i : Instr)
  | elapse (ns : Nat)
  | deliver (n : Nat)
  | service (pid : Nat) (entry : Word)
  | serviceFree (tile : Nat) (entry : Word)
  | ctxError (pid : Nat)
  | packet (n : Nat)
  | bulkSend
  | bulkNak (block : Nat)
  | pmbox (tile : Nat) (k : BitVec 3) (x : Word)
  | spadError (tile key : Nat) (lost : Bool)
  | memError (half : Nat) (lost : Bool)
  | laneError (pid : Nat) (x : Strike)
  | rebound (pid pkg : Nat) (e : MovedEnd)
  | nak (p : Packet) (retry : Bool)
  deriving DecidableEq, Repr

/-- What the last stage-manager snapshot latched of the networks that share a set with other packages (R176, R177): its
cue time, the networks not classified yet, and the parts of their sets that are known, this package's own among them. -/
structure Cut where
  time : Nat
  nets : List Nat
  parts : List SetPart
  deriving DecidableEq, Repr

/-- The state of the package. -/
structure State where
  /-- FSTAT.READY and HOT (R442), and module power. -/
  powered : Bool
  ready : Bool
  hot : Bool
  thermalHeld : Bool
  /-- The cue clock (R377), slewing toward a reference package (R378). -/
  cue : Nat
  cueRef : Option Nat
  /-- Cue frames and snapshots begun so far: the clock's boundaries dealt with (R389, R176). -/
  frame : Nat
  snapTime : Nat
  cut : Cut
  /-- MODEL: the process whose word `exec` executes. -/
  cur : Nat
  procs : AMap Proc
  /-- A lane error on its way: the process whose next convoy in encore mode it strikes (R202). -/
  strike : Option (Nat × Strike)
  /-- Contexts saved for the slots that run Prompter service code, by process (R117, R408). -/
  contexts : AMap Proc
  nets : AMap Net
  tenants : AMap Tenant
  chans : AMap Chan
  /-- Last generation each handle INDEX had (R148). -/
  handleGens : AMap Nat
  /-- Transfer-queue handles alive: INDEX to process and queue (R432). -/
  queueHandles : AMap (Nat × Nat)
  tiles : AMap Tile
  dies : Vector Die 4
  offices : Vector Office 32
  /-- Device memory by physical address; poisoned words by address / 8; half-lines with a latent error by
  address / 32 (true: uncorrectable) (R296, R302). -/
  mem : Memory
  memPoison : NatSet
  memErrors : AMap Bool
  servers : AMap Server
  /-- Requests in the mesh, then in the server queues (R298-R300), and replies on their way back. -/
  flight : List Req
  queued : List Req
  replies : List Reply
  reqAge : Nat
  nextReq : Nat
  /-- Physical pages in use: base and bytes (R83, R453). -/
  usedPages : AMap Nat
  /-- Viaduct. -/
  self : Option Nat
  ports : AMap VPort
  routes : AMap (BitVec 36)
  regs : AMap Reg
  regGens : AMap Nat
  imports : List Import
  remotes : AMap RemotePend
  accepted : List Accepted
  messages : List Message
  /-- Contexts spilled out of the context cache (R430). -/
  spilled : List Ctx
  /-- Packets handed to the links, which deliver each exactly once (R423). -/
  vout : List Packet
  /-- Tokens and credits of circuits NAKed retry and not yet resent (R430). -/
  resends : List Packet
  /-- Handles of the stale tokens and credits the Prompter has logged (R425). -/
  staleLog : List (BitVec 32)
  /-- NAKs sent to other packages, which the Prompter logs: package and cause (R26, R441). -/
  nakLog : List (Nat × Cause)
  /-- Host side. -/
  fns : AMap Fn
  completions : List Completion
  /-- Functions whose next command is complete in CMDIN, in the order they came to be so (R390). -/
  cmdOrder : List Nat
  fuses : Fuses
  /-- Attestations signed since boot (R456). -/
  attests : Nat
  /-- A SNAPSHOT in progress and the networks it holds (R454). -/
  snapshot : Option (Nat × List Nat)
  bulk : Option BulkCopy
  /-- Packets whose flits have all arrived (R423). -/
  inbox : List (List Byte)
  /-- MODEL: turns to be taken first, in order; then choices among the enabled turns; then the counter that
  the free values are drawn with. -/
  agenda : List Turn
  picks : List Nat
  draws : Nat
  deriving DecidableEq, Repr



/-! ## How a step can stop -/

/-- Faults. None stops an instruction the spec gives an effect. -/
inductive Fault where
  /-- `exec` of a process's word in a state whose `cur` names no process; raised by every scalar and vector word
  there. No step of the machine reaches it, since an issue turn executes for a resident process. Safe. -/
  | noProcess
  deriving DecidableEq, Repr

/-- Refusals. -/
inductive Refusal where
  /-- An instruction that has no meaning yet, by its mnemonic; raised by its arm of `exec`. Safe. -/
  | notModelled (mnemonic : String)
  deriving DecidableEq, Repr

/-! ## Values at start and at reset -/

/-- No flag raised (R97). -/
def Flags.none : Flags := { nx := false, uf := false, of := false, dz := false, nv := false }

/-- The trap registers at reset (R399). -/
def TrapRegs.zero : TrapRegs := { epc := 0, tcause := 0, taddr := 0, telem := 0, tinfo := 0 }

/-- The signature state at process start: nothing open, a landing due (R416). -/
def SigState.init : SigState := { want := 0, crc := 0, start := 0, opened := false, landing := true }

/-- The granted sizes at process start (R277). -/
def Grant.start : Grant := { m := 64, n := 64, k := 32 }

/-- A stream context at process start (R332) (DESIGN CHOICE, log 71). -/
def StreamCtx.init : StreamCtx :=
  { mode := .unconfigured, conf := 0, base := 0, aux := 0, stride := 0, ctrl := 0, bits := 0, lrows := 0, perm := [],
    kicks := [], kicked := false, lastId := 0, steps := 0, strips := [], done := 0, fault := false,
    watermark := 0, faulting := none, deadFrom := none, opened := true, limit := none }

/-- A transfer queue at network creation (R431) (DESIGN CHOICE, log 71). -/
def XQueue.init (handle : BitVec 32) : XQueue :=
  { handle, posted := 0, doneCount := 0, arrived := 0, fault := none, posts := [] }

/-- A slice after module reset with no fused bank (R251, R257). -/
def Slice.init : Slice :=
  { st := .normal, stale := [], cec := Vector.replicate 9 0, threshold := Vector.replicate 9 64,
    promoted := false }

/-- A tile after module reset with no fused bank (R111, R145, R257, R313, R352). -/
def Tile.init : Tile :=
  { cycle := 0, pmbox := Vector.replicate 8 0, pmboxNew := [], spad := [], spadPoison := [], under := [],
    underPoison := [], errors := [], slices := Vector.replicate 4 Slice.init, unformed := [], reported := [], fifos := [], events := 0,
    owner := none, withdrawn := false, tlb := [], misses := [], matrix := [], loops := [], asking := [] }

/-- A memory server after module reset. -/
def Server.init : Server :=
  { correctable := 0, uncorrectable := 0, granted := [], links := [], refreshed := 0 }

/-- A die's walk units after module reset. -/
def Die.init : Die := { walks := [], cache := [] }

/-- A free box office (R328). -/
def Office.init : Office := { net := none, count := 0, next := 0, waiting := [] }

/-- A Viaduct port whose link is trained (R455). -/
def VPort.init : VPort := { up := true, bulk := none, recvSeq := 0 }

/-- A function after a module reset: no tenant, empty channels, CMDIN with its 64 credits (R448); every MSI-X vector
masked, PRESUMED from PCI Express (log 20) (DEDUCED, log 93). -/
def Fn.init : Fn :=
  { tenant := none, ovr := 0, badw := 0, cmdin := [], cmdCredits := 64, reply := [], replyWait := [],
    fault := [], slots := [], window := none, busy := none, discards := []
    msix := (List.range 20).map (fun v => (16 * v + 12, 1)), pba := 0, irqs := [] }

/-- The package right after module reset, before its boot has run: READY clear, the cue clock zero, no tenant,
no mapping, every memory zero (R4, R257, R377, R442, R455). -/
def State.reset : State :=
  { powered := true, ready := false, hot := false, thermalHeld := false, cue := 0, cueRef := none, frame := 0,
    snapTime := 0, cut := { time := 0, nets := [], parts := [] }, cur := 0, procs := [], strike := none, contexts := [], nets := [], tenants := [],
    chans := [], handleGens := [], queueHandles := [], tiles := [], dies := Vector.replicate 4 Die.init,
    offices := Vector.replicate 32 Office.init, mem := [], memPoison := [], memErrors := [], servers := [],
    flight := [], queued := [], replies := [], reqAge := 0, nextReq := 0, usedPages := [], self := none,
    ports := [], routes := [], regs := [], regGens := [], imports := [], remotes := [],
    accepted := [], messages := [], spilled := [], vout := [], resends := [], staleLog := [], nakLog := [], fns := [], completions := [], cmdOrder := [],
    fuses := { bootCount := 0, banks := [] }, attests := 0, snapshot := none, bulk := none, inbox := [], agenda := [],
    picks := [], draws := 0 }

end Sys2Proof.Machine
end

