-- ==== Sys2Proof/Machine/Maps.lean ====
section
/-!
DEFINITION. The finite maps, sets and byte memories of the state, each in one canonical form: keys strictly
rising, and in a byte memory no entry equal to what an unlisted address reads as.
-/

namespace Sys2Proof.Machine

/-! ## Finite maps -/

/-- The value at a key. -/
def mget {α : Type} : AMap α → Nat → Option α
  | [], _ => none
  | (k, v) :: m, x => if x = k then some v else mget m x

/-- The map with a value at a key. -/
def mset {α : Type} : AMap α → Nat → α → AMap α
  | [], x, v => [(x, v)]
  | (k, w) :: m, x, v =>
    if x < k then (x, v) :: (k, w) :: m
    else if x = k then (x, v) :: m
    else (k, w) :: mset m x v

/-- The map without a key. -/
def mdel {α : Type} : AMap α → Nat → AMap α
  | [], _ => []
  | (k, w) :: m, x => if x = k then mdel m x else (k, w) :: mdel m x

/-- The value at a key, or a default. -/
def mgetD {α : Type} (m : AMap α) (x : Nat) (d : α) : α := (mget m x).getD d

/-- The map with the value at a key changed; a key without a value stays without. -/
def mmod {α : Type} (m : AMap α) (x : Nat) (f : α → α) : AMap α :=
  match mget m x with
  | none => m
  | some v => mset m x (f v)

/-- The keys of a map, rising. -/
def mkeys {α : Type} (m : AMap α) : List Nat := m.map (·.1)

/-- The least number from `k` up, among the next `fuel`, that is no key. -/
def mfresh {α : Type} (m : AMap α) : Nat → Nat → Nat
  | 0, k => k
  | fuel + 1, k => if (mget m k).isSome then mfresh m fuel (k + 1) else k

/-- The least number that is no key. -/
def mnext {α : Type} (m : AMap α) : Nat := mfresh m (m.length + 1) 0

/-- Keys strictly rise. -/
def mwf {α : Type} : AMap α → Bool
  | [] => true
  | [_] => true
  | (k, _) :: (l, w) :: m => decide (k < l) && mwf ((l, w) :: m)

/-! ## Sets of numbers -/

/-- The set with a number. -/
def nsAdd : NatSet → Nat → NatSet
  | [], x => [x]
  | y :: s, x => if x < y then x :: y :: s else if x = y then y :: s else y :: nsAdd s x

/-- The set without a number. -/
def nsDel (s : NatSet) (x : Nat) : NatSet := s.filter (· != x)

/-- The set with or without a number. -/
def nsPut (s : NatSet) (x : Nat) (b : Bool) : NatSet := if b then nsAdd s x else nsDel s x

/-! ## Byte memories -/

/-- One byte (DESIGN CHOICE, log 1). -/
def memByte (m : Memory) (a : Nat) : Byte := (mget m a).getD 0

/-- A byte written: writing what an unlisted address reads as removes the entry. -/
def memPut (m : Memory) (a : Nat) (b : Byte) : Memory := if b = 0 then mdel m a else mset m a b

/-- `n` bytes from an address up. -/
def memBytes (m : Memory) (a : Nat) : Nat → List Byte
  | 0 => []
  | n + 1 => memByte m a :: memBytes m (a + 1) n

/-- Bytes written from an address up. -/
def memPutBytes (m : Memory) (a : Nat) : List Byte → Memory
  | [] => m
  | b :: bs => memPutBytes (memPut m a b) (a + 1) bs

/-- The canonical form of a byte memory. -/
def Memory.wf (m : Memory) : Bool := mwf m && m.all (fun c => c.2 != 0)

/-- The memory without the bytes from `a` to `a + n - 1`. -/
def memClear (m : Memory) (a n : Nat) : Memory := m.filter (fun c => c.1 < a || a + n ≤ c.1)

/-- The bytes listed from `a` to `a + n - 1`. -/
def memSlice (m : Memory) (a n : Nat) : Memory := m.filter (fun c => a ≤ c.1 && c.1 < a + n)

/-! ## Vectors by number -/

/-- Element `i` of a vector, or a default. -/
def vget {α : Type} {n : Nat} (v : Vector α n) (i : Nat) (d : α) : α := (v[i]?).getD d

/-- The vector with element `i` replaced. -/
def vput {α : Type} {n : Nat} (v : Vector α n) (i : Nat) (x : α) : Vector α n := v.setIfInBounds i x

/-- The vector with element `i` changed. -/
def vmod {α : Type} {n : Nat} (v : Vector α n) (i : Nat) (f : α → α) : Vector α n :=
  match v[i]? with
  | none => v
  | some x => v.setIfInBounds i (f x)

end Sys2Proof.Machine
end

