-- ==== Sys2Proof/Machine/Flags.lean ====
section
/-!
DEFINITION. The sticky floating-point flags of VFLAGS and how instructions raise them (R97, R98).
-/

namespace Sys2Proof.Machine

/-- Flags of both (R98). -/
def Flags.or (a b : Flags) : Flags :=
  { nx := a.nx || b.nx, uf := a.uf || b.uf, of := a.of || b.of, dz := a.dz || b.dz, nv := a.nv || b.nv }

/-- NV alone. -/
def Flags.invalid : Flags := { Flags.none with nv := true }

/-- DZ alone. -/
def Flags.divZero : Flags := { Flags.none with dz := true }

/-- NV where a condition holds. -/
def Flags.nvIf (b : Bool) : Flags := { Flags.none with nv := b }

/-- VFLAGS as a register (R97). -/
def Flags.toWord (f : Flags) : Word :=
  BitVec.ofNat 64 (f.nv.toNat + 2 * f.dz.toNat + 4 * f.of.toNat + 8 * f.uf.toNat + 16 * f.nx.toNat)

/-- VFLAGS from a register value; its reserved bits are ignored (R97). -/
def Flags.ofWord (w : Word) : Flags :=
  { nv := w.getLsbD 0, dz := w.getLsbD 1, of := w.getLsbD 2, uf := w.getLsbD 3, nx := w.getLsbD 4 }

end Sys2Proof.Machine
end

