-- ==== Sys2Proof/Machine/Numeric.lean ====
section
/-!
DEFINITION. Number formats, exact values and their rounding, accuracy classes, the single-input functions and
conversion (R84-R110).
-/

namespace Sys2Proof.Machine

/-! ## Formats (R84-R86) -/

/-- A binary floating-point format: bits of exponent and fraction, the bias, the largest finite magnitude as an
encoding, the canonical NaN, and whether it has infinities (R84-R86). -/
structure Fmt where
  ebits : Nat
  fbits : Nat
  bias : Nat
  maxEnc : Nat
  nan : Nat
  hasInf : Bool
  deriving DecidableEq, Repr

/-- FP32 (R84). -/
def fFp32 : Fmt := { ebits := 8, fbits := 23, bias := 127, maxEnc := 0x7F7FFFFF, nan := 0x7FC00000, hasInf := true }
/-- FP16 (R84). -/
def fFp16 : Fmt := { ebits := 5, fbits := 10, bias := 15, maxEnc := 0x7BFF, nan := 0x7E00, hasInf := true }
/-- BF16 (R84). -/
def fBf16 : Fmt := { ebits := 8, fbits := 7, bias := 127, maxEnc := 0x7F7F, nan := 0x7FC0, hasInf := true }
/-- E4M3 (R84). -/
def fE4m3 : Fmt := { ebits := 4, fbits := 3, bias := 7, maxEnc := 0x7E, nan := 0x7F, hasInf := false }
/-- E5M2 (R84). -/
def fE5m2 : Fmt := { ebits := 5, fbits := 2, bias := 15, maxEnc := 0x7B, nan := 0x7E, hasInf := true }
/-- E2M1 (R84). -/
def fE2m1 : Fmt := { ebits := 2, fbits := 1, bias := 1, maxEnc := 0x7, nan := 0, hasInf := false }
/-- Floating W56 (R84). -/
def fW56 : Fmt :=
  { ebits := 11, fbits := 44, bias := 1023, maxEnc := 0x7FEFFFFFFFFFFF, nan := 0x7FF80000000000, hasInf := true }

/-- Significand width p with the hidden bit (R84). -/
def Fmt.p (F : Fmt) : Nat := F.fbits + 1
/-- Least exponent (R84). -/
def Fmt.emin (F : Fmt) : Int := 1 - F.bias
/-- The sign bit as a value. -/
def Fmt.signBit (F : Fmt) : Nat := 2 ^ (F.ebits + F.fbits)
/-- The encoding of +infinity, one above the largest finite magnitude. -/
def Fmt.infEnc (F : Fmt) : Nat := F.maxEnc + 1

/-- A value: NaN, an infinity, or the finite value (-1)^neg * m * 2^e, a zero keeping its sign. -/
inductive FVal where
  | nan
  | inf (neg : Bool)
  | fin (neg : Bool) (m : Nat) (e : Int)
  deriving DecidableEq, Repr

/-- The value an encoding has (R84). -/
def Fmt.decode (F : Fmt) (bits : Nat) : FVal :=
  let neg := bits / F.signBit % 2 = 1
  let mag := bits % F.signBit
  if mag ≤ F.maxEnc then
    let E := mag / 2 ^ F.fbits
    let f := mag % 2 ^ F.fbits
    if E = 0 then .fin neg f (F.emin - F.fbits)
    else .fin neg (2 ^ F.fbits + f) ((E : Int) - F.bias - F.fbits)
  else if F.hasInf && mag == F.infEnc then .inf neg
  else .nan

/-- An encoding with a sign. -/
def Fmt.signed (F : Fmt) (neg : Bool) (mag : Nat) : Nat := if neg then F.signBit + mag else mag

/-! ## Rounding (R92-R94) -/

/-- 2 to the power of an integer, as a left shift of a natural number when it is not negative. -/
def pow2 (e : Int) : Nat := 2 ^ e.toNat

/-- Rounds up from `lo` under a mode: `rem / den` is the part of a spacing above `lo`, `sticky` that a little
more than `rem` is there (R92). -/
def roundUp (mode : RMode) (neg : Bool) (lo rem den : Nat) (sticky : Bool) (key : Nat) : Bool :=
  if rem = 0 ∧ sticky = false then false
  else match mode with
    | .rne => decide (den < 2 * rem) || (decide (2 * rem = den) && (sticky || lo % 2 == 1))
    | .rna => decide (den ≤ 2 * rem)
    | .rz => false
    | .ru => !neg
    | .rd => neg
    | .sr => decide (2 ^ 32 ≤ rem * 2 ^ 32 / den + key)

/-- The result of an overflow (R93). -/
def overflow (F : Fmt) (neg : Bool) (mode : RMode) (sat : Bool) : Nat :=
  if F.hasInf then
    match mode with
    | .rz => F.signed neg F.maxEnc
    | .ru => if neg then F.signed true F.maxEnc else F.infEnc
    | .rd => if neg then F.signed true F.infEnc else F.maxEnc
    | _ => F.signed neg F.infEnc
  else if F.nan = 0 then F.signed neg F.maxEnc
  else if sat then F.signed neg F.maxEnc
  else F.nan

/-- Round of R92 on the magnitude `m * 2^e`, plus a little less than `2^e` more when `sticky`: the encoding and
the flags of R94. -/
def roundMag (F : Fmt) (mode : RMode) (sat : Bool) (key : Nat) (neg : Bool) (m : Nat) (e : Int)
    (sticky : Bool) : Nat × Flags :=
  if m = 0 ∧ sticky = false then (F.signed neg 0, Flags.none)
  else
    let top : Int := (Nat.log2 m : Int) + e
    let E := max top F.emin
    let sh := E - F.fbits - e
    let den := pow2 sh
    let lo := if 0 ≤ sh then m / den else m * pow2 (-sh)
    let rem := if 0 ≤ sh then m % den else 0
    let r := if roundUp mode neg lo rem den sticky key then lo + 1 else lo
    let inexact := decide (rem ≠ 0) || sticky
    let enc := (E - F.emin).toNat * 2 ^ F.fbits + r
    if F.maxEnc < enc then
      (overflow F neg mode sat, { Flags.none with of := true, nx := true })
    else
      (F.signed neg enc, { Flags.none with nx := inexact, uf := inexact && decide (top < F.emin) })

/-- Round of any value: NaN and the infinities pass (R85, R92). -/
def roundVal (F : Fmt) (v : FVal) (mode : RMode := .rne) (sat : Bool := false) (key : Nat := 0) : Nat × Flags :=
  match v with
  | .nan => (F.nan, Flags.none)
  | .inf neg => (F.signed neg F.infEnc, Flags.none)
  | .fin neg m e => roundMag F mode sat key neg m e false

/-- A value rounded to an integer (R95): the integer and whether it differs from the value. -/
def roundInt (mode : RMode) (key : Nat) (neg : Bool) (m : Nat) (e : Int) : Int × Bool :=
  let den := pow2 (-e)
  let lo := if 0 ≤ e then m * pow2 e else m / den
  let rem := if 0 ≤ e then 0 else m % den
  let r := if roundUp mode neg lo rem den false key then lo + 1 else lo
  (if neg then -(r : Int) else r, decide (rem ≠ 0))

/-! ## Element types -/

/-- Size(t) in bytes; 8 for `.w56` and 1 for `.mx4`, whose units are slots (R184, R204, R286). -/
def etSize : ETy → Nat
  | .i8 | .u8 | .e4m3 | .e5m2 | .mx4 => 1
  | .i16 | .u16 | .f16 | .bf16 => 2
  | .i32 | .u32 | .f32 => 4
  | .i64 | .u64 | .w56 => 8

/-- The format of a floating type. -/
def etFmt : ETy → Option Fmt
  | .f16 => some fFp16 | .bf16 => some fBf16 | .f32 => some fFp32 | .e4m3 => some fE4m3 | .e5m2 => some fE5m2
  | _ => none

/-- The format of a floating type, FP32 standing for the others. -/
def etFmtD (t : ETy) : Fmt := (etFmt t).getD fFp32

/-- The type is a signed integer type. -/
def etSigned : ETy → Bool
  | .i8 | .i16 | .i32 | .i64 => true
  | _ => false

/-- Width of an element in bits. -/
def etWidth (t : ETy) : Nat := 8 * (etSize t)

/-- A pattern of `w` bits as a two's complement value. -/
def signedOf (w : Nat) (x : Nat) : Int := if 2 ^ w ≤ 2 * (x % 2 ^ w) then (x % 2 ^ w : Nat) - (2 ^ w : Nat) else (x % 2 ^ w : Nat)

/-- Bits(w) of an integer (R21). -/
def bitsOf (w : Nat) (x : Int) : Nat := (x % (2 ^ w : Nat)).toNat

/-- Val under an integer type (R204). -/
def etInt (t : ETy) (bits : Nat) : Int := if (etSigned t) then signedOf (etWidth t) bits else (bits % 2 ^ (etWidth t) : Nat)

/-- Min(t) (R204). -/
def etMin (t : ETy) : Int := if (etSigned t) then -(2 ^ ((etWidth t) - 1) : Nat) else 0

/-- Max(t) (R204). -/
def etMax (t : ETy) : Int := if (etSigned t) then (2 ^ ((etWidth t) - 1) : Nat) - 1 else (2 ^ (etWidth t) : Nat) - 1

/-- The value of an integer. -/
def FVal.ofInt (x : Int) : FVal := .fin (decide (x < 0)) x.natAbs 0

/-! ## Exact arithmetic (R100-R105) -/

/-- A value with its sign changed. -/
def FVal.neg : FVal → FVal
  | .nan => .nan
  | .inf s => .inf (!s)
  | .fin s m e => .fin (!s) m e

/-- The exact sum of R103, with NV for opposite infinities. -/
def FVal.add : FVal → FVal → FVal × Bool
  | .nan, _ => (.nan, false)
  | _, .nan => (.nan, false)
  | .inf s, .inf t => if s = t then (.inf s, false) else (.nan, true)
  | .inf s, .fin .. => (.inf s, false)
  | .fin .., .inf t => (.inf t, false)
  | .fin s m e, .fin t n f =>
    let lo := min e f
    let a : Int := m * pow2 (e - lo)
    let b : Int := n * pow2 (f - lo)
    let sum := (if s then -a else a) + (if t then -b else b)
    if sum = 0 then (.fin (m == 0 && n == 0 && s && t) 0 0, false)
    else (.fin (decide (sum < 0)) sum.natAbs lo, false)

/-- The number of bits of a significand. -/
def bitLen (m : Nat) : Nat := if m = 0 then 0 else Nat.log2 m + 1

/-- The integer significand of p bits and the exponent of its leading one (R100). -/
def significand (p m : Nat) (e : Int) : Nat × Int :=
  (m * 2 ^ (p - bitLen m), e + bitLen m - 1)

/-- The TP sum of partial products: bit pairs of weight 2^(p-1) and above (R101). -/
def tpSum (p A B : Nat) : Nat → Nat
  | 0 => 0
  | i + 1 => tpSum p A B i + (if A.testBit i then (B / 2 ^ (p - 1 - i)) * 2 ^ (p - 1) else 0)

/-- Product of finite nonzero operands (R101): magnitude and exponent. -/
def product (cls : ACls) (p : Nat) (m : Nat) (e : Int) (n : Nat) (f : Int) : Nat × Int :=
  match cls with
  | .ex => (m * n, e + f)
  | .tp =>
    let (A, ea) := significand p m e
    let (B, eb) := significand p n f
    (tpSum p A B p, ea + eb - 2 * ((p : Int) - 1))
  | .lg =>
    let (A, ea) := significand p m e
    let (B, eb) := significand p n f
    let one := 2 ^ (p - 1)
    let S := (A - one) + (B - one)
    if S < one then (one + S, ea + eb - ((p : Int) - 1)) else (S, ea + eb + 1 - ((p : Int) - 1))

/-- Product with special operands, and its NV (R102). -/
def FVal.mul (cls : ACls) (p : Nat) : FVal → FVal → FVal × Bool
  | .nan, _ => (.nan, false)
  | _, .nan => (.nan, false)
  | .inf s, .inf t => (.inf (s != t), false)
  | .inf s, .fin t n _ => if n = 0 then (.nan, true) else (.inf (s != t), false)
  | .fin s m _, .inf t => if m = 0 then (.nan, true) else (.inf (s != t), false)
  | .fin s m e, .fin t n f =>
    if m = 0 ∨ n = 0 then (.fin (s != t) 0 0, false)
    else let (r, x) := product cls p m e n f
         (.fin (s != t) r x, false)

/-- A value times 2^n, exactly. -/
def FVal.scale (n : Int) : FVal → FVal
  | .fin s m e => .fin s m (e + n)
  | v => v

/-- A NaN. -/
def FVal.isNan : FVal → Bool
  | .nan => true
  | _ => false

/-- a < b as values, neither a NaN; zeros are equal. -/
def FVal.lt : FVal → FVal → Bool
  | .nan, _ => false
  | _, .nan => false
  | .inf s, .inf t => s && !t
  | .inf s, .fin .. => s
  | .fin .., .inf t => !t
  | .fin s m e, .fin t n f =>
    let lo := min e f
    let a : Int := m * pow2 (e - lo)
    let b : Int := n * pow2 (f - lo)
    decide ((if s then -a else a) < (if t then -b else b))

/-- The value is negative, a negative zero included. -/
def FVal.isNeg : FVal → Bool
  | .nan => false
  | .inf s => s
  | .fin s _ _ => s

/-- The order of FMIN and FMAX, with -0 below +0 (R125, R212). -/
def FVal.below (a b : FVal) : Bool := a.lt b || (!b.lt a && a.isNeg && !b.isNeg)

/-- The smaller or larger of two values; NaN if either is (R125, R212). -/
def FVal.pick (max : Bool) (a b : FVal) : FVal :=
  if a.isNan || b.isNan then .nan
  else if max then (if a.below b then b else a) else (if b.below a then b else a)

/-! ## Operations on encodings -/

/-- A rounded sum (R103, R125, R212). -/
def Fmt.addEnc (F : Fmt) (a b : Nat) : Nat × Flags :=
  let (s, nv) := (F.decode a).add (F.decode b)
  let (r, fl) := roundVal F s
  (r, fl.or (Flags.nvIf nv))

/-- A rounded difference: a + (-b). -/
def Fmt.subEnc (F : Fmt) (a b : Nat) : Nat × Flags :=
  let (s, nv) := (F.decode a).add (F.decode b).neg
  let (r, fl) := roundVal F s
  (r, fl.or (Flags.nvIf nv))

/-- A rounded class product (R101-R103). -/
def Fmt.mulEnc (F : Fmt) (cls : ACls) (a b : Nat) : Nat × Flags :=
  let (v, nv) := (F.decode a).mul cls F.p (F.decode b)
  let (r, fl) := roundVal F v
  (r, fl.or (Flags.nvIf nv))

/-- A class product plus an addend, rounded once; `neg` rounds the negated sum (R103). -/
def Fmt.fmaEnc (F : Fmt) (cls : ACls) (neg : Bool) (a b c : Nat) : Nat × Flags :=
  let (v, nv) := (F.decode a).mul cls F.p (F.decode b)
  let (s, nv') := v.add (F.decode c)
  let (r, fl) := roundVal F (if neg then s.neg else s)
  (r, fl.or (Flags.nvIf (nv || nv')))

/-- FMIN, FMAX, VFMIN, VFMAX. -/
def Fmt.pickEnc (F : Fmt) (max : Bool) (a b : Nat) : Nat :=
  let v := FVal.pick max (F.decode a) (F.decode b)
  (roundVal F v).1

/-! ## Quotients and roots (R106, R126) -/

/-- The largest r with r * r at most n, from bit `k` down. -/
def isqrtGo (n : Nat) : Nat → Nat → Nat
  | 0, r => r
  | k + 1, r =>
    let t := r + 2 ^ k
    if t * t ≤ n then isqrtGo n k t else isqrtGo n k r

/-- The integer square root. -/
def isqrt (n : Nat) : Nat := isqrtGo n (bitLen n / 2 + 1) 0

/-- A correctly rounded quotient (R126): the special cases and, else, Round(a / b). -/
def Fmt.divEnc (F : Fmt) (a b : Nat) : Nat × Flags :=
  match F.decode a, F.decode b with
  | .nan, _ => (F.nan, Flags.none)
  | _, .nan => (F.nan, Flags.none)
  | .inf _, .inf _ => (F.nan, Flags.invalid)
  | .inf s, .fin t _ _ => (F.signed (s != t) F.infEnc, Flags.none)
  | .fin s _ _, .inf t => (F.signed (s != t) 0, Flags.none)
  | .fin s m e, .fin t n f =>
    if n = 0 then
      if m = 0 then (F.nan, Flags.invalid) else (F.signed (s != t) F.infEnc, Flags.divZero)
    else if m = 0 then (F.signed (s != t) 0, Flags.none)
    else
      let num := m * 2 ^ 96
      roundMag F .rne false 0 (s != t) (num / n) (e - f - 96) (num % n != 0)

/-- The square root of m * 2^e: root, exponent, and whether more follows. -/
def sqrtMag (m : Nat) (e : Int) : Nat × Int × Bool :=
  let (m', e') := if e % 2 = 0 then (m, e) else (2 * m, e - 1)
  let n := m' * 2 ^ 192
  let r := isqrt n
  (r, e' / 2 - 96, r * r != n)

/-- A correctly rounded square root (R126). -/
def Fmt.sqrtEnc (F : Fmt) (a : Nat) : Nat × Flags :=
  match F.decode a with
  | .nan => (F.nan, Flags.none)
  | .inf s => if s then (F.nan, Flags.invalid) else (F.infEnc, Flags.none)
  | .fin s m e =>
    if m = 0 then (F.signed s 0, Flags.none)
    else if s then (F.nan, Flags.invalid)
    else let (r, x, st) := sqrtMag m e
         roundMag F .rne false 0 false r x st

/-- Reciprocal of m * 2^e (R106). -/
def rcpMag (m : Nat) (e : Int) : Nat × Int × Bool :=
  let num := 2 ^ 192
  (num / m, -e - 192, num % m != 0)

/-- Reciprocal square root of m * 2^e (R106). -/
def rsqMag (m : Nat) (e : Int) : Nat × Int × Bool :=
  let (m', e') := if e % 2 = 0 then (m, e) else (2 * m, e - 1)
  let num := 2 ^ 384
  let r := isqrt (num / m')
  (r, -(e' / 2) - 192, r * r * m' != num)

/-! ## 2^x and log2 x, correctly rounded (R106)

A power of two at an exponent that is no integer, and a logarithm of what is no power of two, are irrational, so
no result is a tie or exact; enough leading bits of a lower bound, with more to follow, decide the rounding. -/

/-- Product of the roots 2^(2^-i) for the bits of a fraction `f / 2^n`, most significant first, in fixed point
with `pr` fraction bits; `root` is the last root. -/
def exp2Frac (pr f : Nat) : Nat → Nat → Nat → Nat
  | 0, _, acc => acc
  | i + 1, root, acc =>
    let root' := isqrt (root * 2 ^ pr)
    exp2Frac pr f i root' (if f.testBit i then acc * root' / 2 ^ pr else acc)

/-- 2^x for a finite x = m * 2^e that is no integer: bits, exponent. A fraction below 2^-40 leaves the result
between 1 and its neighbour (DEDUCED, log 77). -/
def exp2Mag (neg : Bool) (m : Nat) (e : Int) : Nat × Int :=
  if (bitLen m : Int) + e < -40 then
    if neg then (2 ^ 60 - 1, -60) else (2 ^ 60, -60)
  else
    let n := (-e).toNat
    let ip := m / 2 ^ n
    let fp := m % 2 ^ n
    let (ip', fp') := if neg then (-(ip : Int) - 1, 2 ^ n - fp) else ((ip : Int), fp)
    let v := exp2Frac 320 fp' n (2 ^ 321) (2 ^ 320)
    (v / 2 ^ 160, ip' - 160)

/-- Binary digits of log2 y for y in [1, 2), in fixed point with `pr` fraction bits, by repeated squaring. -/
def log2Digits (pr : Nat) : Nat → Nat → Nat → Nat
  | 0, _, acc => acc
  | k + 1, y, acc =>
    let y2 := y * y / 2 ^ pr
    if 2 ^ (pr + 1) ≤ y2 then log2Digits pr k (y2 / 2) (2 * acc + 1) else log2Digits pr k y2 (2 * acc)

/-- log2 of m * 2^e where m is no power of two: sign, bits, exponent (DEDUCED, log 77). -/
def log2Mag (m : Nat) (e : Int) : Bool × Nat × Int :=
  let E := e + Nat.log2 m
  let y := m * 2 ^ (640 - Nat.log2 m)
  let d := log2Digits 640 128 y 0
  if 0 ≤ E then (false, E.toNat * 2 ^ 128 + d, -128)
  else (true, (-E).toNat * 2 ^ 128 - d - 1, -128)

/-! ## Mitchell's functions (R106) -/

/-- MitchellLog of m * 2^e, exactly, as an integer over 2^k. -/
def mitchellLog (m : Nat) (e : Int) : Int × Nat :=
  let k := Nat.log2 m
  ((e + k) * (2 ^ k : Nat) + ((m : Int) - (2 ^ k : Nat)), k)

/-- MitchellExp of y / 2^k, exactly: magnitude and exponent. -/
def mitchellExp (y : Int) (k : Nat) : Nat × Int :=
  let d : Nat := 2 ^ k
  let n := y / (d : Int)
  ((d + (y - n * (d : Int))).toNat, n - k)

/-- The four single-input functions. -/
inductive Fn1 where
  | rcp | rsq | exp2 | log2
  deriving DecidableEq, Repr

/-- A single-input function on an encoding (R106, R107). -/
def Fmt.fn1 (F : Fmt) (fn : Fn1) (cls : ACls) (a : Nat) : Nat × Flags :=
  let round := fun (neg : Bool) (m : Nat) (e : Int) (st : Bool) => roundMag F .rne false 0 neg m e st
  match fn, F.decode a with
  | _, .nan => (F.nan, Flags.none)
  | .rcp, .inf s => (F.signed s 0, Flags.none)
  | .rsq, .inf s => if s then (F.nan, Flags.invalid) else (0, Flags.none)
  | .exp2, .inf s => if s then (0, Flags.none) else (F.infEnc, Flags.none)
  | .log2, .inf s => if s then (F.nan, Flags.invalid) else (F.infEnc, Flags.none)
  | .rcp, .fin s m e =>
    if m = 0 then (F.signed s F.infEnc, Flags.divZero)
    else if cls = .lg then
      let (y, k) := mitchellLog m e
      let (r, x) := mitchellExp (-y) k
      round s r x false
    else let (r, x, st) := rcpMag m e
         round s r x st
  | .rsq, .fin s m e =>
    if m = 0 then (F.signed s F.infEnc, Flags.divZero)
    else if s then (F.nan, Flags.invalid)
    else if cls = .lg then
      let (y, k) := mitchellLog m e
      let (r, x) := mitchellExp (-y) (k + 1)
      round false r x false
    else let (r, x, st) := rsqMag m e
         round false r x st
  | .exp2, .fin s m e =>
    if m = 0 then (roundMag F .rne false 0 false 1 0 false)
    else if 2048 ≤ m * pow2 e ∧ 0 ≤ e then
      round false 1 (if s then -4096 else 4096) false
    else if cls = .lg then
      let y : Int := if s then -(m : Int) else m
      if 0 ≤ e then round false 1 (y * pow2 e) false
      else let (r, x) := mitchellExp y (-e).toNat
           round false r x false
    else if 0 ≤ e ∨ m % pow2 (-e) = 0 then
      let n : Int := if 0 ≤ e then m * pow2 e else m / pow2 (-e)
      round false 1 (if s then -n else n) false
    else if (bitLen m : Int) + e > 12 then round false 1 (if s then -4096 else 4096) true
    else let (r, x) := exp2Mag s m e
         round false r x true
  | .log2, .fin s m e =>
    if m = 0 then (F.signed true F.infEnc, Flags.divZero)
    else if s then (F.nan, Flags.invalid)
    else if cls = .lg ∨ m = 2 ^ Nat.log2 m then
      let (y, k) := mitchellLog m e
      round (decide (y < 0)) y.natAbs (-k) false
    else let (neg, r, x) := log2Mag m e
         round neg r x true

/-! ## Conversion (R95, R96) -/

/-- SrBits (R96): `dest` is a vd code, or 32 + a for a scalar conversion. -/
def srBits (seed : Word) (dest e : Nat) : Nat :=
  let x := seed ^^^ (BitVec.ofNat 64 dest <<< 56) ^^^ BitVec.ofNat 64 e
  let x := (x ^^^ (x >>> 31)) * 0xD6E8FEB86659FD93
  let x := (x ^^^ (x >>> 29)) * 0xA5CB3D6B2C1F8E47
  (x ^^^ (x >>> 32)).toNat % 2 ^ 32

/-- Convert to a floating format (R95). E2M1 takes an infinity to its largest value; a NaN bound for E2M1 is the
caller's (R95). -/
def convertFlt (F : Fmt) (v : FVal) (mode : RMode) (sat : Bool) (key : Nat) : Nat × Flags :=
  match v with
  | .nan => (F.nan, Flags.none)
  | .inf neg =>
    if F.hasInf then (F.signed neg F.infEnc, Flags.none)
    else if F.nan = 0 ∨ sat then (F.signed neg F.maxEnc, Flags.none)
    else (F.nan, Flags.invalid)
  | .fin neg m e => roundMag F mode sat key neg m e false

/-- Convert to an integer type given by its bounds (R95). -/
def convertInt (lo hi : Int) (v : FVal) (mode : RMode) (key : Nat) : Int × Flags :=
  match v with
  | .nan => (0, Flags.invalid)
  | .inf neg => (if neg then lo else hi, Flags.invalid)
  | .fin neg m e =>
    let (n, nx) := roundInt mode key neg m e
    if n < lo then (lo, Flags.invalid)
    else if hi < n then (hi, Flags.invalid)
    else (n, { Flags.none with nx })

/-- The value of an element under its type (R84, R204). -/
def etVal (t : ETy) (bits : Nat) : FVal :=
  match (etFmt t) with
  | some F => F.decode bits
  | none => if t = .w56 then fW56.decode bits else FVal.ofInt ((etInt t) bits)

/-- Convert between element types 0 to 12 (R95, R214). -/
def convertElem (src dst : ETy) (mode : RMode) (sat : Bool) (key : Nat) (bits : Nat) : Nat × Flags :=
  match (etFmt dst) with
  | some F =>
    if src = dst then
      (if (F.decode bits).isNan then F.nan else bits % 2 ^ (etWidth dst), Flags.none)
    else convertFlt F ((etVal src) bits) mode sat key
  | none =>
    let (n, fl) := convertInt (etMin dst) (etMax dst) ((etVal src) bits) mode key
    (bitsOf (etWidth dst) n, fl)

end Sys2Proof.Machine
end

