-- ==== Sys2Proof/Machine/Ops.lean ====
section
/-!
DEFINITION. The named operations over the state: processes and their registers, choices, faults records, requests
to memory servers, taking a trap and returning from one (R11, R39-R43, R118, R300, R395-R408).
-/

namespace Sys2Proof.Machine

/-- The outcome of an instruction. -/
abbrev Res := Host.Outcome State Fault Refusal

/-! ## Parts of the state by number -/

/-- The process with a number. -/
def State.proc? (s : State) (pid : Nat) : Option Proc := mget s.procs pid

/-- The state with a process. -/
def State.setProc (s : State) (pid : Nat) (p : Proc) : State := { s with procs := mset s.procs pid p }

/-- The state with a process changed. -/
def State.modProc (s : State) (pid : Nat) (f : Proc → Proc) : State := { s with procs := mmod s.procs pid f }

/-- A tile; a tile that nothing has touched is as after reset (R257). -/
def State.tile (s : State) (t : Nat) : Tile := mgetD s.tiles t Tile.init

/-- The state with a tile. -/
def State.setTile (s : State) (t : Nat) (x : Tile) : State := { s with tiles := mset s.tiles t x }

/-- The state with a tile changed. -/
def State.modTile (s : State) (t : Nat) (f : Tile → Tile) : State := s.setTile t (f (s.tile t))

/-- A memory server. -/
def State.server (s : State) (k : Nat) : Server := mgetD s.servers k Server.init

/-- The state with a server changed. -/
def State.modServer (s : State) (k : Nat) (f : Server → Server) : State :=
  { s with servers := mset s.servers k (f (s.server k)) }

/-- The state with a channel changed. -/
def State.modChan (s : State) (c : Nat) (f : Chan → Chan) : State := { s with chans := mmod s.chans c f }

/-- The state with a network changed. -/
def State.modNet (s : State) (n : Nat) (f : Net → Net) : State := { s with nets := mmod s.nets n f }

/-- The state with a tenant changed. -/
def State.modTenant (s : State) (n : Nat) (f : Tenant → Tenant) : State := { s with tenants := mmod s.tenants n f }

/-- A function; port p, function f is number 33 p + f (R442). -/
def State.fn (s : State) (n : Nat) : Fn := mgetD s.fns n Fn.init

/-- The state with a function changed. -/
def State.modFn (s : State) (n : Nat) (f : Fn → Fn) : State := { s with fns := mset s.fns n (f (s.fn n)) }

/-- The meaning of a word of the current process (DEDUCED, log 8). -/
def State.withCur (s : State) (f : Proc → State) : Res :=
  match s.proc? s.cur with
  | none => .fault .noProcess
  | some p => .next (f p)

/-- The state with the current process (DEDUCED, log 8). -/
def State.setCur (s : State) (p : Proc) : State := s.setProc s.cur p

/-! ## Choices -/

/-- One of `n` outcomes the spec leaves to timing, and the state after the choice. With at most one outcome
nothing is drawn. -/
def State.pick (s : State) (n : Nat) : Nat × State :=
  if n ≤ 1 then (0, s)
  else match s.picks with
    | k :: ks => (k % n, { s with picks := ks })
    | [] => (Config.choice s.draws n % n, { s with draws := s.draws + 1 })

/-! ## Registers (R118) -/

/-- A general register; g0 reads as zero. -/
def Proc.rd (p : Proc) (r : GReg) : Word := if r = 0 then 0 else p.g[r.toNat]

/-- A general register written; a write to g0 is discarded. -/
def Proc.wr (p : Proc) (r : GReg) (x : Word) : Proc :=
  if r = 0 then p else { p with g := p.g.setIfInBounds r.toNat x }

/-- The word completes and the next one follows it. -/
def Proc.advance (p : Proc) : Proc := { p with pc := p.pc + 4 }

/-- Flags raised by an instruction of the process (R98). -/
def Proc.raise (p : Proc) (f : Flags) : Proc := { p with vflags := p.vflags.or f }

/-- The current process writes one register and goes on to the next word. -/
def State.finishWr (s : State) (p : Proc) (r : GReg) (x : Word) : State := s.setCur (p.wr r x).advance

/-- The current process goes on to the next word. -/
def State.finish (s : State) (p : Proc) : State := s.setCur p.advance

/-- Sign extension of the low `n` bits (R119). -/
def signExt {w : Nat} (x : BitVec w) : Word := x.signExtend 64

/-! ## Parking (R113-R115) -/

/-- The process waits: its PC stays on the word, whose signature state is taken back until the word completes. -/
def Proc.parkOn (p : Proc) (r : ParkReason) (i : Instr) : Proc :=
  { p with st := .parked r, park := some { reason := r, instr := i, sigAfter := p.sig }, woken := false,
           sig := p.sigOld }

/-- The current process parks on a word. -/
def State.parkCur (s : State) (p : Proc) (r : ParkReason) (i : Instr) : State := s.setCur (p.parkOn r i)

/-! ## The fault record (R402-R405) -/

/-- A record joins the tenant's fault record. One that does not fit within 4,096 queued tokens, and every record
after it, is kept in the reserve, with a notice of cause 0xC2 behind the first, and every running network of the
tenant is held (R403). -/
def State.enterToks (s : State) (tenant : Nat) (toks : List FaultTok) : State :=
  match mget s.tenants tenant with
  | none => s
  | some t =>
    if t.reserve.isEmpty && decide (t.faultq.length + toks.length ≤ 4096) then
      { s with tenants := mset s.tenants tenant { t with faultq := t.faultq ++ toks } }
    else if t.reserve.isEmpty then
      let note : List FaultTok :=
        [{ word := 0x0300FFFFF0000000, discard := none }, { word := 0xC200000000000000, discard := none }]
      { s with
        tenants := mset s.tenants tenant { t with reserve := [toks, note] }
        nets := s.nets.map (fun (k, n) =>
          (k, if n.tenant = tenant ∧ n.st = .running then { n with st := .held, thermal := false } else n)) }
    else { s with tenants := mset s.tenants tenant { t with reserve := t.reserve ++ [toks] } }

/-- A record of words. -/
def State.enterRecord (s : State) (tenant : Nat) (toks : List Word) : State :=
  s.enterToks tenant (toks.map (fun w => { word := w, discard := none }))

/-- Token 0 of a trap or notice record: KIND, CAUSE, NET, LPROC, ORIGIN, NTOK (R404, R405). -/
def recordHead (kind cause net lproc origin ntok : Nat) : Word :=
  BitVec.ofNat 64 (kind * 2 ^ 56 + cause % 256 * 2 ^ 48 + net % 256 * 2 ^ 40 + lproc % 4096 * 2 ^ 28
    + origin % 8 * 2 ^ 25 + ntok % 32 * 2 ^ 20)

/-- NET and LPROC of a process (R404). -/
def State.netNumber (s : State) (p : Proc) : Nat :=
  match mget s.nets p.net with
  | some n => n.number
  | none => 0

/-- A notice word (R405). -/
def noticeWord (cause : Cause) (src stream detail : Nat) : Word :=
  BitVec.ofNat 64 (cause.toNat * 2 ^ 56 + src % 16 * 2 ^ 52 + stream % 8 * 2 ^ 49 + detail % 2 ^ 48)

/-- A notice with a process behind it joins the fault record (R405); NTOK is 0, as R405 leaves it. -/
def State.noticeOf (s : State) (p : Proc) (w : Word) : State :=
  s.enterRecord p.tenant [recordHead 3 0 (s.netNumber p) p.desc.lproc 0 0, w]

/-- A notice with no process behind it (R405). -/
def State.noticeBare (s : State) (tenant : Nat) (w : Word) : State :=
  s.enterRecord tenant [recordHead 3 0 0xFF 0xFFF 0 0, w]

/-! ## Taking a trap (R395-R399) -/

/-- StopVector on a process (R396): every convoy that has started stops at a restart point, no further one starts
while the process is trapped or out, and writes of general registers not made stay unmade. Groups that have
begun have finished, but for requests still in flight, which finish behind the stop. An MRING whose round has not
begun waits no longer (R294) (DEDUCED, log 74). -/
def Proc.stopVector (p : Proc) : Proc :=
  { p with convoys := p.convoys.map (fun c => { c with stopped := true }), ringWait := none }

/-- The address of the oldest vector entry that is not complete and so holds a restart point, or 0 (R404). -/
def Proc.vpcOf (p : Proc) : Word :=
  let entries := p.tasks.map (fun t => (t.id, t.body.addr)) ++
    (p.queue.filter (fun e => e.kind != .fence)).map (fun e => (e.id, e.addr))
  match entries with
  | [] => 0
  | x :: xs => (xs.foldl (fun m y => if y.1 < m.1 then y else m) x).2

/-- The values a trap reports (DEDUCED, log 10). -/
structure TrapInfo where
  cause : Cause
  origin : Nat
  pc : Word
  addr : Word
  elem : Word
  info : Word
  deriving DecidableEq, Repr

/-- TakeTrap (R395): the trap registers, Trapped, and a trap record (R404). A request that the parked word has sent
is performed once: the word keeps it through a trap of another origin (R115, R398) (DEDUCED, log 10)
(DEDUCED, log 74). -/
def State.takeTrap (s : State) (pid : Nat) (t : TrapInfo) : State :=
  match s.proc? pid with
  | none => s
  | some p0 =>
    let p := p0.stopVector
    let epc : Word := t.pc &&& 0x000FFFFFFFFFFFFF
    let tcause : Word := BitVec.ofNat 64 (t.origin % 8 * 256 + t.cause.toNat)
    let keep := t.origin != 0 && (match p.pend with
      | some (.sent _) => true
      | some (.done _) => true
      | _ => false)
    let p' := { p with
      st := .trapped, park := if keep then p.park else none, woken := false
      pend := if keep then p.pend else none, record := if keep then p.record else []
      trap := { epc, tcause, taddr := t.addr, telem := t.elem &&& 0xFFFFFFFF, tinfo := t.info } }
    (s.setProc pid p').enterRecord p.tenant
      [recordHead 2 t.cause.toNat (s.netNumber p) p.desc.lproc t.origin 5, epc, t.addr, t.info,
        t.elem &&& 0xFFFFFFFF, p.vpcOf]

/-- The PC a trap of another origin than the scalar stream reports: the next word's, or the parked word's
(R397, R398). A parked word that has completed its wait stands at its PC as well. -/
def Proc.trapPc (p : Proc) : Word := p.pc

/-- A word of the current process raises a cause: it has no effect, its signature state included (R395, R416). -/
def State.trapCur (s : State) (p : Proc) (cause : Cause) (addr : Word := 0) (info : Word := 0) : State :=
  (s.setCur { p with sig := p.sigOld }).takeTrap s.cur
    { cause, origin := 0, pc := p.pc, addr, elem := 0, info }

/-- SYSC and BRK: the word completes and traps, and resumption goes on behind it (R407). -/
def State.trapAfter (s : State) (p : Proc) (cause : Cause) (addr info : Word) : State :=
  (s.setCur p.advance).takeTrap s.cur { cause, origin := 0, pc := p.pc + 4, addr, elem := 0, info }

/-- Return from a trap (R401, R412): Ready at EPC, signature state and restart points as saved. -/
def Proc.resumeTrapped (p : Proc) : Proc := { p with st := .ready, pc := p.trap.epc }

/-- Convoys and stopped entries go on (R201, R280, R412). -/
def Proc.unstop (p : Proc) : Proc := { p with convoys := p.convoys.map (fun c => { c with stopped := false }) }

/-- The word at which a captured process restarts: EPC of a Trapped one, else its PC (R399, R412). -/
def Proc.restartPc (p : Proc) : Word := if p.st = .trapped then p.trap.epc else p.pc

/-- A process back from service code: its context restored, with what its ports, queues and channels did meanwhile
(R408) (DEDUCED, log 13). -/
def Proc.returned (p ctx : Proc) : Proc :=
  { ctx.unstop with
    priv := false, st := .ready, pc := ctx.restartPc, woken := ctx.woken || (ctx.pend.isSome && ctx.park.isSome)
    frozen := p.frozen, eff := p.eff, ports := p.ports, launches := p.launches, queries := p.queries, xq := p.xq
    triggers := p.triggers, coll := p.coll, collIssued := p.collIssued, colls := p.colls, collFault := p.collFault
    heldDigests := p.heldDigests, heldMarkers := p.heldMarkers, heldChunks := p.heldChunks, resvUnits := p.resvUnits
    resvNext := p.resvNext, storeSeq := p.storeSeq, acks := p.acks }

/-! ## Requests to memory servers (R297-R300) -/

/-- The server a physical address belongs to (R297). -/
def serverOf (pa : Nat) : Nat :=
  ((pa / 2 ^ 9 % 256) ^^^ (pa / 2 ^ 17 % 256) ^^^ (pa / 2 ^ 25 % 256) ^^^ (pa / 2 ^ 33 % 64))

/-- A request sent to the server of its address; its number and the state. -/
def State.sendReq (s : State) (src : Source) (pa : Nat) (kind : ReqKind) (prio : Nat) : Nat × State :=
  (s.nextReq,
    { s with flight := s.flight ++ [{ id := s.nextReq, src, pa, kind, prio, age := s.reqAge }]
             nextReq := s.nextReq + 1, reqAge := s.reqAge + 1 })

end Sys2Proof.Machine
end

