-- ==== Sys2Proof/Machine/Memory.lean ====
section
/-!
DEFINITION. Device memory and its servers: errors and poison, what a line request does at the instant it is
performed, links, page tables and translation, and remote requests (R296-R327, R427).
-/

namespace Sys2Proof.Machine

/-! ## Latent errors and poison (R302, R303) -/

/-- A 32-bit counter that saturates (R305). -/
def satInc (c : BitVec 32) : BitVec 32 := if c = 0xFFFFFFFF then c else c + 1

/-- Words of a half-line marked poisoned. -/
def poisonHalf (p : NatSet) (h : Nat) : NatSet :=
  nsAdd (nsAdd (nsAdd (nsAdd p (4 * h)) (4 * h + 1)) (4 * h + 2)) (4 * h + 3)

/-- An access to half-line `h` that reads it: a latent error is corrected, or poisons it (R302). -/
def State.readHalf (s : State) (h : Nat) : State :=
  match mget s.memErrors h with
  | none => s
  | some false =>
    ({ s with memErrors := mdel s.memErrors h }).modServer (serverOf (32 * h))
      (fun v => { v with correctable := satInc v.correctable })
  | some true =>
    ({ s with memErrors := mdel s.memErrors h, mem := memClear s.mem (32 * h) 32
              memPoison := poisonHalf s.memPoison h }).modServer (serverOf (32 * h))
      (fun v => { v with uncorrectable := satInc v.uncorrectable })

/-- `n` half-lines from `h` up, read. -/
def State.readHalves (s : State) (h : Nat) : Nat → State
  | 0 => s
  | n + 1 => (s.readHalf h).readHalves (h + 1) n

/-- The half-lines that bytes `pa` to `pa + n - 1` touch. -/
def halves (pa n : Nat) : Nat := if n = 0 then 0 else (pa + n - 1) / 32 - pa / 32 + 1

/-- Poison of the word of each of `n` bytes from `pa` up. -/
def State.poisonAt (s : State) (pa : Nat) : Nat → List Bool
  | 0 => []
  | n + 1 => s.memPoison.contains (pa / 8) :: s.poisonAt (pa + 1) n

/-- Bytes read, with the poison of their words (R302, R303). -/
def State.physRead (s : State) (pa n : Nat) : State × List Byte × List Bool :=
  let s := s.readHalves (pa / 32) (halves pa n)
  (s, memBytes s.mem pa n, s.poisonAt pa n)

/-- Before a write of `n` bytes from `pa`, half-lines from `h` up: one the write covers loses its latent error
undecoded, any other is read (R302). -/
def State.writeHalves (s : State) (pa n h : Nat) : Nat → State
  | 0 => s
  | k + 1 =>
    let s' := if pa ≤ 32 * h ∧ 32 * h + 32 ≤ pa + n then { s with memErrors := mdel s.memErrors h }
              else s.readHalf h
    s'.writeHalves pa n (h + 1) k

/-- Poison of words after a write: a word covered whole takes the poison of its data, any other ORs it (R303). -/
def poisonWords (p : NatSet) (pa n w : Nat) (data : List Bool) : Nat → NatSet
  | 0 => p
  | k + 1 =>
    let lo := max pa (8 * w)
    let hi := min (pa + n) (8 * w + 8)
    let psn := ((data.drop (lo - pa)).take (hi - lo)).any id
    let p' := if lo = 8 * w ∧ hi = 8 * w + 8 then nsPut p w psn else if psn then nsAdd p w else p
    poisonWords p' pa n (w + 1) data k

/-- Bytes written, with the poison of each (R302, R303). -/
def State.physWrite (s : State) (pa : Nat) (bytes : List Byte) (poison : List Bool) : State :=
  let n := bytes.length
  if n = 0 then s
  else
    let s := s.writeHalves pa n (pa / 32) (halves pa n)
    { s with mem := memPutBytes s.mem pa bytes
             memPoison := poisonWords s.memPoison pa n (pa / 8) poison ((pa + n - 1) / 8 - pa / 8 + 1) }

/-- Links on the lines of bytes `pa` to `pa + n - 1` removed (R325). -/
def State.unlinkLines (s : State) (pa n : Nat) : State :=
  let lo := pa / 64
  let hi := (pa + n - 1) / 64
  { s with servers := s.servers.map (fun (k, v) =>
      (k, { v with links := v.links.filter (fun l => !(decide (lo ≤ l.1) && decide (l.1 ≤ hi))) })) }

/-- A write with its effect on links (R325). -/
def State.memWrite (s : State) (pa : Nat) (bytes : List Byte) (poison : List Bool) : State :=
  (s.unlinkLines pa bytes.length).physWrite pa bytes poison

/-- A link entered; a full table loses its oldest (R325). -/
def State.enterLink (s : State) (pa : Nat) (src : Source) : State :=
  s.modServer (serverOf pa) (fun v =>
    if v.links.contains (pa / 64, src) then v
    else { v with links := (if 4096 ≤ v.links.length then v.links.drop 1 else v.links) ++ [(pa / 64, src)] })

/-- The links of a process removed (R325). -/
def State.unlinkProc (s : State) (pid : Nat) : State :=
  { s with servers := s.servers.map (fun (k, v) => (k, { v with links := v.links.filter (fun l => l.2 != .proc pid) })) }

/-! ## Atomic operations (R318, R323, R326) -/

/-- AmoOp of R318 on `w`-bit values; CAS stands for its new value. -/
def amoOp (op : AOp) (w old x : Nat) : Nat :=
  match op with
  | .add => (old + x) % 2 ^ w
  | .and => old &&& x
  | .or => old ||| x
  | .xor => old ^^^ x
  | .min => if signedOf w x < signedOf w old then x else old
  | .max => if signedOf w old < signedOf w x then x else old
  | .minu => if x < old then x else old
  | .maxu => if old < x then x else old
  | .swap => x
  | .cas => x

/-- The operation on `.f32` values, with its flags (R323). -/
def amoFlt (op : AOp) (old x : Nat) : Nat × Flags :=
  match op with
  | .add => fFp32.addEnc old x
  | .min => (fFp32.pickEnc false old x, Flags.none)
  | .max => (fFp32.pickEnc true old x, Flags.none)
  | _ => (x, Flags.none)

/-! ## Performing a line request (R298) -/

/-- A reply with nothing in it. -/
def Reply.ack (id : Nat) (src : Source) : Reply :=
  { id, src, bytes := [], poison := [], cause := none, ok := true, flags := Flags.none }

/-- A line request performed at one instant: the state and the reply (R298, R302, R303, R318, R323-R326). -/
def State.perform (s : State) (rid : Nat) (src : Source) (pa : Nat) (k : ReqKind) : State × Reply :=
  let ack := Reply.ack rid src
  match k with
  | .read n =>
    let (s, b, p) := s.physRead pa n
    (s, { ack with bytes := b, poison := p })
  | .write b p => (s.memWrite pa b p, ack)
  | .fill b p whole =>
    let s := s.memWrite pa b p
    ({ s with memPoison := whole.foldl (fun m w => nsPut m (pa / 8 + w.1) w.2) s.memPoison }, ack)
  | .amo op n x expect =>
    let (s, b, p) := s.physRead pa n
    if p.any id then (s, { ack with cause := some 0x40 })
    else
      let old := leNat b
      let r := { ack with bytes := b, poison := p }
      if op = .cas ∧ old ≠ expect then (s, { r with ok := false })
      else (s.memWrite pa (leBytes n (amoOp op (8 * n) old x)) (List.replicate n false), r)
  | .vamo op n flt x expect psn =>
    let (s, b, p) := s.physRead pa n
    let old := leNat b
    let pold := p.any id
    let (new, fl) :=
      if op = .cas then (if old = expect then x else old, Flags.none)
      else if flt then amoFlt op old x
      else (amoOp op (8 * n) old x, Flags.none)
    (s.memWrite pa (leBytes n new) (List.replicate n (pold || psn)),
      { ack with bytes := b, poison := p, flags := fl })
  | .linked n =>
    let (s, b, p) := s.physRead pa n
    (s.enterLink pa src, { ack with bytes := b, poison := p })
  | .cond b p =>
    if (s.server (serverOf pa)).links.contains (pa / 64, src) then (s.memWrite pa b p, ack) else (s, { ack with ok := false })
  | .sadd n flt x psn =>
    let (s, b, p) := s.physRead pa n
    let old := leNat b
    let (new, fl) := if flt then amoFlt .add old x else (amoOp .add (8 * n) old x, Flags.none)
    (s.memWrite pa (leBytes n new) (List.replicate n (p.any id || psn)), { ack with flags := fl })

/-! ## Page tables (R306-R312) -/

/-- The end of installed memory (R296). -/
def memLimit : Nat := Config.memBytes

/-- A page-table entry as its server would return it; none where it reads back poisoned. -/
def State.entryAt (s : State) (pa : Nat) : Option Nat :=
  if s.memPoison.contains (pa / 8) || mget s.memErrors (pa / 32) == some true then none
  else some (leNat (memBytes s.mem pa 8))

/-- Bytes of a page by its size code (R309). -/
def pageBytes (size : Nat) : Nat :=
  match size with
  | 0 => 2 ^ 12 | 1 => 2 ^ 14 | 2 => 2 ^ 16 | 3 => 2 ^ 18 | 4 => 2 ^ 20 | 5 => 2 ^ 21 | 6 => 2 ^ 22
  | 7 => 2 ^ 24 | 8 => 2 ^ 26 | 9 => 2 ^ 28 | 10 => 2 ^ 30 | _ => 2 ^ 32

/-- Level of a page's leaves (R309). -/
def leafLevel (size : Nat) : Nat := if size ≤ 4 then 4 else if size ≤ 9 then 3 else 2

/-- Bytes an entry of a level spans. -/
def levelBytes (level : Nat) : Nat := 2 ^ (12 + 9 * (4 - level))

/-- Leaves of a page's run (R309). -/
def runLeaves (size : Nat) : Nat := pageBytes size / levelBytes (leafLevel size)

/-- What one entry says. -/
inductive Pte where
  | fault (cause : Cause)
  | pointer (table : Nat)
  | leaf (size : Nat) (l : Leaf)
  deriving DecidableEq, Repr

/-- An entry read at a level (R307-R309). -/
def readPte (e level : Nat) : Pte :=
  let size := e / 2 ^ 8 % 16
  let base := e / 2 ^ 12 % 2 ^ 27 * 2 ^ 12
  let high := e / 2 ^ 39
  if !e.testBit 0 then .fault 0x20
  else if e.testBit 7 || e.testBit 6 then .fault 0x28
  else if !e.testBit 1 then
    if level = 4 ∨ size ≠ 0 ∨ e.testBit 5 ∨ e.testBit 4 ∨ e.testBit 3 ∨ e.testBit 2 ∨ high ≠ 0 then .fault 0x28
    else if memLimit < base + 4096 then .fault 0x29
    else .pointer base
  else if level = 1 ∨ 11 < size ∨ leafLevel size ≠ level then .fault 0x28
  else
    let rd := e.testBit 2
    let w := e.testBit 3
    let x := e.testBit 4
    let p := pageBytes size
    if e.testBit 5 then
      let off := e / 2 ^ 12 % 2 ^ 30 * 4096
      if off % p ≠ 0 then .fault 0x28
      else .leaf size (.page p rd w x (.remote (e / 2 ^ 42 % 1024) (BitVec.ofNat 12 (e / 2 ^ 52)) off))
    else if high ≠ 0 ∨ base % p ≠ 0 then .fault 0x28
    else if memLimit < base + p then .fault 0x29
    else .leaf size (.page p rd w x (.phys base))

/-- The index of an address at a level (R307). -/
def levelIndex (va level : Nat) : Nat := va / levelBytes level % 512

/-- The walk from a table at a level (R307, R310), `fuel` levels still to go (DESIGN CHOICE, log 87). -/
def State.walkFrom (s : State) (va table level : Nat) : Nat → Leaf
  | 0 => .bad 0x28 level
  | fuel + 1 =>
    let i := levelIndex va level
    match s.entryAt (table + 8 * i) with
    | none => .bad 0x2A level
    | some e =>
      match readPte e level with
      | .fault c => .bad c level
      | .pointer t => s.walkFrom va t (level + 1) fuel
      | .leaf size l =>
        let j := i - i % runLeaves size
        if j = i then l
        else match s.entryAt (table + 8 * j) with
          | none => .bad 0x2A level
          | some f =>
            match readPte f level with
            | .fault c => .bad c level
            | .pointer _ => .bad 0x28 level
            | .leaf size' l' => if size' = size then l' else .bad 0x28 level

/-- The walk of a tenant's page table as it stands (R307). -/
def State.walkAt (s : State) (tenant va : Nat) : Leaf :=
  match mget s.tenants tenant with
  | none => .bad 0x20 1
  | some t => s.walkFrom (va % 2 ^ 48) t.root 1 4

/-- Access kinds (R316). -/
def kRead : Nat := 0
/-- Write (R316). -/
def kWrite : Nat := 1
/-- Read-modify-write (R316). -/
def kRmw : Nat := 2
/-- Fetch (R316). -/
def kFetch : Nat := 3

/-- Level of a page's leaf, from its size in bytes. -/
def levelOfBytes (p : Nat) : Nat := if p ≤ 2 ^ 20 then 4 else if p ≤ 2 ^ 28 then 3 else 2

/-- A leaf's answer to an access of a kind at an address: where it goes, or a cause and its level (R311, R312). -/
def Leaf.access (l : Leaf) (va kind : Nat) : Except (Cause × Nat) Place :=
  match l with
  | .bad c level => .error (c, level)
  | .page p rd w x place =>
    let ok := if kind = kRead then rd else if kind = kWrite then w else if kind = kRmw then rd && w else x
    match place with
    | .phys base => if ok then .ok (.phys (base + va % p)) else .error (0x21, levelOfBytes p)
    | .remote pkg key off =>
      if ok && kind != kFetch then .ok (.remote pkg key (off + va % p)) else .error (0x21, levelOfBytes p)

/-- TINFO of a translation fault (R316). -/
def transInfo (level kind : Nat) : Word := BitVec.ofNat 64 (level * 2 ^ 32 + kind * 2 ^ 36)

/-- A canonical device address (R306). -/
def canonDev (t : Word) : Bool := t >>> 48 == 8

/-- The leaf a TLB holds for an address: by bits [47:0] of it (R306). -/
def tlbFind (tlb : List TlbEntry) (va : Nat) : Option Leaf :=
  match tlb with
  | [] => none
  | e :: es => match e.leaf with
    | .page p _ _ _ _ =>
      if e.vpage % 2 ^ 48 ≤ va % 2 ^ 48 ∧ va % 2 ^ 48 < e.vpage % 2 ^ 48 + p then some e.leaf else tlbFind es va
    | .bad _ _ => tlbFind es va

/-- A leaf entered in a TLB of 512 entries (R313). -/
def tlbFill (tlb : List TlbEntry) (va : Nat) (l : Leaf) : List TlbEntry :=
  match l with
  | .bad _ _ => tlb
  | .page p _ _ _ _ =>
    if (tlbFind tlb va).isSome then tlb
    else (if 512 ≤ tlb.length then tlb.drop 1 else tlb) ++ [{ vpage := va / p * p, leaf := l }]

/-- The 4 KiB page that identifies a miss (R314). -/
def pageOf (va : Nat) : Nat := va / 4096 % 2 ^ 36

/-- What a tile knows of an address: a leaf of its TLB, or what a walk has answered (R313, R316). -/
def Tile.leafOf (t : Tile) (va : Nat) : Option Leaf :=
  (tlbFind t.tlb va).or ((t.denied.find? (fun d => d.1 == pageOf va)).map (·.2))

/-- A translation at a tile: by what the tile knows, else as the page table stands (R313, R315) (DEDUCED, log 27). -/
def State.tileTranslate (s : State) (tile tenant va kind : Nat) : Except (Cause × Nat) Place :=
  (((s.tile tile).leafOf va).getD (s.walkAt tenant va)).access va kind

/-- The addresses of a list that a process's tile has yet to have translated (R314). -/
def State.unknown (s : State) (p : Proc) (l : List Word) : List Nat :=
  (l.filter (fun a => canonDev a && ((s.tile p.tile).leafOf a.toNat).isNone)).map (·.toNat)

/-- An answer that names no page has been met: it is asked for anew (R315). -/
def State.clearDenied (s : State) (tile : Nat) : State :=
  if (s.tile tile).denied.isEmpty then s else s.modTile tile (fun t => { t with denied := [] })

/-- The entries a walk reads, read: errors in their half-lines are corrected or made poison, and counted (R302). -/
def State.touchTable (s : State) (va table level : Nat) : Nat → State
  | 0 => s
  | fuel + 1 =>
    let a := table + 8 * levelIndex va level
    let (s, b, psn) := s.physRead a 8
    if psn.any id then s
    else match readPte (leNat b) level with
      | .pointer t => s.touchTable va t (level + 1) fuel
      | _ => s

/-- A walk of a tenant's page table by the agent itself, as it touches memory. -/
def State.touchWalk (s : State) (tenant va : Nat) : State :=
  if s.memErrors.isEmpty then s
  else match mget s.tenants tenant with
    | none => s
    | some t => s.touchTable (va % 2 ^ 48) t.root 1 4

/-- A translation by a walk alone: host functions, the Prompter and the relay engines (DEDUCED, log 27). -/
def State.walkTranslate (s : State) (tenant va kind : Nat) : Except (Cause × Nat) Place :=
  (s.walkAt tenant va).access va kind

/-! ## Remote requests (R427, R428) -/

/-- The generation an import recorded; 0, which no registration has, without one (R426, R427) (DEDUCED, log 28). -/
def State.importGen (s : State) (tenant pkg : Nat) (key : BitVec 12) : BitVec 12 :=
  match s.imports.find? (fun i => i.tenant == tenant && i.pkg == pkg && i.key == key) with
  | some i => i.gen
  | none => 0

/-- This package's number; 0 until a topology names it. -/
def State.selfPkg (s : State) : Nat := s.self.getD 0

/-- The number by which another package knows a source of this one (R325). -/
def Source.agent : Source → Nat
  | .proc pid => 8 * pid
  | .engine pid k => 8 * (16 * pid + k) + 1
  | .relay pid k => 8 * (16 * pid + k) + 2
  | .walk die k => 8 * (16 * die + k) + 3
  | .fn n => 8 * n + 4
  | .prompter => 5
  | .remote pkg n => 8 * (1024 * n + pkg) + 6

/-- A transfer queue of a process. -/
def Proc.queueAt (p : Proc) (q : Nat) : XQueue := vget p.xq q (XQueue.init 0)

/-- A queue handle that names a live queue (R432, R436). -/
def State.queueOf (s : State) (h : BitVec 32) : Option (Nat × Nat) :=
  match mget s.queueHandles (h.toNat / 4096) with
  | none => none
  | some (pid, q) => match s.proc? pid with
    | none => none
    | some p => if (p.queueAt q).handle = h then some (pid, q) else none

/-! ## The context cache (R430) -/

/-- The contexts of the package, each with what pins it (DEDUCED, log 54). -/
def State.contextList (s : State) : List (Ctx × Bool) :=
  s.chans.filterMap (fun x => if x.2.circuits.isEmpty then none
    else some (.circuit x.1, x.2.circuits.any (fun ci => !ci.heldTokens.isEmpty || !ci.heldCredits.isEmpty)))
  ++ s.imports.map (fun i => (.imported i.tenant i.pkg i.key,
      s.remotes.any (fun x => x.2.req.tenant == i.tenant && x.2.pkg == i.pkg && x.2.req.key == i.key)))
  ++ s.regs.map (fun x => (.registration x.1, s.accepted.any (fun a => a.key.toNat == x.1)))
  ++ s.queueHandles.map (fun x => (.queue x.1,
      s.accepted.any (fun a => match a.msg with
        | some m => m.tqh.toNat / 4096 == x.1
        | none => false)))

/-- The I/O die whose cache a context goes to (DESIGN CHOICE, log 91). -/
def Ctx.die (c : Ctx) : Nat :=
  Config.contextDie (match c with
    | .circuit k => 4 * k
    | .imported t pkg key => 4 * (t * 2 ^ 22 + pkg * 2 ^ 12 + key.toNat) + 1
    | .registration k => 4 * k + 2
    | .queue k => 4 * k + 3) % 2

/-- The 4,096 entries of a context's cache are taken (R430) (DEDUCED, log 54). -/
def State.cacheFull (s : State) (c : Ctx) : Bool :=
  let l := s.contextList.filter (fun x => !s.spilled.contains x.1)
  !decide (l.length < 4096) && decide (4096 ≤ (l.filter (fun x => x.1.die == c.die)).length)

/-- A context comes to be: in its cache, or in the spill area where the cache is full (R430). -/
def State.enterCtx (s : State) (c : Ctx) : State :=
  if (s.contextList.map (·.1)).contains c || !s.cacheFull c then s else { s with spilled := s.spilled ++ [c] }

/-- The packet of a request: a line request, or a packet of a transfer. -/
def RemotePend.packet (x : RemotePend) : Packet :=
  match x.msg with
  | some m => .message x.pkg m
  | none => .request x.pkg x.req

/-- A request to another package: sent, or held while the context of its import is fetched (R430). -/
def State.addRemote (s : State) (x : RemotePend) : State :=
  let away := s.spilled.contains (.imported x.req.tenant x.pkg x.req.key)
  { s with remotes := mset s.remotes s.nextReq { x with unsent := away }
           vout := if away then s.vout else s.vout ++ [x.packet], nextReq := s.nextReq + 1 }

/-- What waited for a context goes out (R430). -/
def State.sendHeld (s : State) (c : Ctx) : State :=
  let mine := fun (x : Nat × RemotePend) => x.2.unsent && c == .imported x.2.req.tenant x.2.pkg x.2.req.key
  { s with vout := s.vout ++ (s.remotes.filter mine).map (fun x => x.2.packet)
           remotes := s.remotes.map (fun x => if mine x then (x.1, { x.2 with unsent := false }) else x) }

/-- A remote line request sent: its number and the state (DEDUCED, log 28). -/
def State.sendRemote (s : State) (src : Source) (tenant pkg : Nat) (key : BitVec 12) (off : Nat) (kind : ReqKind) :
    Nat × State :=
  let req : RemReq :=
    { src := s.selfPkg, id := s.nextReq, agent := src.agent, tenant, key, gen := s.importGen tenant pkg key, off, kind }
  (s.nextReq,
    { s.addRemote { pkg, src, req, msg := none, retries := 0, waiting := false } with reqAge := s.reqAge + 1 })

/-- An access sent to where its translation leads. -/
def State.sendTo (s : State) (src : Source) (tenant : Nat) (place : Place) (kind : ReqKind) (prio : Nat) :
    Nat × State :=
  match place with
  | .phys pa => s.sendReq src pa kind prio
  | .remote pkg key off => s.sendRemote src tenant pkg key off kind

/-- The reply an engine waits for, taken. -/
def State.takeSource (s : State) (src : Source) : Option (State × Reply) :=
  match s.replies.find? (fun r => r.src == src) with
  | none => none
  | some r => some ({ s with replies := s.replies.filter (fun x => x.id != r.id) }, r)

/-- A source's request is still under way: on the mesh, at a server, or at another package. -/
def State.sourceWaits (s : State) (src : Source) : Bool :=
  s.remotes.any (fun x => x.2.src == src) || s.flight.any (fun r => r.src == src) || s.queued.any (fun r => r.src == src)

/-- A source's request is under way, or its reply is there. -/
def State.sourceBusy (s : State) (src : Source) : Bool := s.sourceWaits src || s.replies.any (fun r => r.src == src)

/-- A source's requests and replies forgotten. -/
def State.forgetSource (s : State) (src : Source) : State :=
  { s with remotes := s.remotes.filter (fun x => x.2.src != src), replies := s.replies.filter (fun r => r.src != src)
           flight := s.flight.filter (fun r => r.src != src), queued := s.queued.filter (fun r => r.src != src) }

/-- The relay engine that works for a queue or a process's collectives: of I/O die 0 the first four (R3, R439)
(DESIGN CHOICE, log 91). -/
def relayOf (pid k : Nat) : Nat := Config.relayEngine pid (k % 8) % 8

/-- Two sources are one requesting agent: the streams of one tile share its engine, and what is given to one relay engine
shares that (R299). -/
def State.sameAgent (s : State) (x y : Source) : Bool :=
  x == y || (match x, y with
    | .engine a _, .engine b _ => (s.proc? a).map (·.tile) == (s.proc? b).map (·.tile)
    | .relay a j, .relay b k => relayOf a j == relayOf b k
    | _, _ => false)

/-- The relay engine of a source has an access for other work under way (R370): its program is sequential. -/
def State.relayBusy (s : State) (pid k : Nat) : Bool :=
  let other := fun (x : Source) => match x with
    | .relay a j => x != .relay pid k && decide (4 ≤ j) && relayOf a j == relayOf pid k
    | _ => false
  s.flight.any (fun r => other r.src) || s.queued.any (fun r => other r.src) || s.remotes.any (fun x => other x.2.src)

end Sys2Proof.Machine
end

