-- ==== Sys2Proof/Machine/Tokens.lean ====
section
/-!
DEFINITION. The shared operations of channels: ends, credits, launching, arrival, consuming, and notices sent to a
fault port (R147-R162, R176, R405).
-/

namespace Sys2Proof.Machine

/-- The channel and direction a port of a process is bound to; true for a producer (R147). -/
def Proc.port (p : Proc) (q : Nat) : Option (Nat × Bool) := mget p.ports q

/-- A channel. -/
def State.chan? (s : State) (c : Nat) : Option Chan := mget s.chans c

/-- The producer of a channel whose end is the given one: its number. -/
def Chan.prodOf (c : Chan) (e : End) : Option Nat := c.prods.findIdx? (fun x => x.src == e)

/-- The channel with one producer changed. -/
def Chan.modProd (c : Chan) (k : Nat) (f : Producer → Producer) : Chan := { c with prods := c.prods.modify k f }

/-- A process that has retired, or is no longer there (R43). -/
def State.isRetired (s : State) (pid : Nat) : Bool :=
  match s.proc? pid with
  | none => true
  | some p => p.st == .retired

/-- Poison bits of a token as a byte (R150). -/
def Token.poisonByte (t : Token) : Byte :=
  BitVec.ofNat 8 (t.poison.zipIdx.foldl (fun n x => if x.1 then n + 2 ^ x.2 else n) 0)

/-- Handle of a channel (R148). -/
def Chan.handle (x : Chan) (c : Nat) : BitVec 32 := BitVec.ofNat 32 (c * 4096 + x.gen.toNat)

/-- The circuit of a channel that leads to a package (R425). -/
def Chan.circuitTo (c : Chan) (pkg : Nat) : Option Circuit := c.circuits.find? (fun ci => ci.pkg == pkg)

/-- The channel with its circuit to a package changed. -/
def Chan.modCircuit (c : Chan) (pkg : Nat) (f : Circuit → Circuit) : Chan :=
  { c with circuits := c.circuits.map (fun ci => if ci.pkg = pkg then f ci else ci) }

/-- The consumer has retired (R161): here, or at another package as far as that has told. -/
def State.consumerRetired (s : State) (c : Chan) : Bool :=
  match c.consumer with
  | .proc pid _ => s.isRetired pid
  | .remote pkg => (c.circuitTo pkg).any (·.retired)
  | _ => false

/-- Data of a scalar send as a channel's token (R165). -/
def scalarToken (wide : Bool) (x : Word) (tag : Byte) : Token :=
  if wide then { data := leBytes 8 x.toNat ++ List.replicate 56 0, tag, poison := List.replicate 8 false }
  else { data := leBytes 8 x.toNat, tag, poison := [false] }

/-- Tokens discarded because the consumer has retired are counted in the network (R43, R161). -/
def State.countDiscard (s : State) (c : Chan) (n : Nat) : State :=
  s.modNet c.net (fun x => { x with discarded := x.discarded + n })

/-- `n` credits spent at a producer: tokens sent (R155, R176). -/
def State.spend (s : State) (c k n : Nat) : State :=
  s.modChan c (fun x => x.modProd k (fun d =>
    { d with credits := d.credits - n, sent := d.sent + BitVec.ofNat 32 n }))

/-- A token launched: on its way to the consumer (R165). -/
def State.launch (s : State) (c k : Nat) (t : Token) : State :=
  s.modChan c (fun x => x.modProd k (fun d => { d with flight := d.flight ++ [t] }))

/-- The entry written at the consumer: the on-tile buffer first, spill once it is full or in use (R179). -/
def Chan.arrive (x : Chan) (k : Nat) (t : Token) : Chan :=
  if x.spill.isEmpty && decide (x.buffer.length < x.slots) then
    { x with buffer := x.buffer ++ [(k, t)], written := x.written + 1 }
  else { x with spill := x.spill ++ [(k, t)], written := x.written + 1 }

/-- Slots free on the tile refilled from the oldest spilled tokens, before a receive completes (R179). -/
def Chan.refilled (x : Chan) : Chan :=
  { x with buffer := x.buffer ++ x.spill.take (x.slots - x.buffer.length), spill := x.spill.drop (x.slots - x.buffer.length) }

/-- `n` tokens consumed, a credit returned for each to the port that sent it (R155). -/
def Chan.consume (x : Chan) : Nat → Chan
  | 0 => x
  | n + 1 =>
    match x.buffer with
    | [] => x
    | (k, _) :: rest =>
      ({ x with buffer := rest, consumed := x.consumed + 1 }.modProd k
        (fun d => { d with returning := d.returning + 1 })).consume n

/-- Tokens consumed at a channel by a receive (R155, R179). -/
def State.consume (s : State) (c n : Nat) : State := s.modChan c (fun x => x.refilled.consume n)

/-- A notice of SRC 1 or 2 sent alone to the process's fault port, where that has a credit (R159, R405). -/
def State.noticePort (s : State) (pid : Nat) (w : Word) : State :=
  match s.proc? pid with
  | none => s
  | some p =>
    if !p.desc.fpen then s
    else match p.port p.desc.fport with
      | some (c, false) => match s.chan? c with
        | none => s
        | some x => match x.prodOf (.fault pid) with
          | none => s
          | some k => match x.prods[k]? with
            | some d => if d.credits = 0 then s else (s.spend c k 1).launch c k (scalarToken false w 128)
            | none => s
      | _ => s

/-- A notice of a process: in the fault record, and at its fault port (R405). -/
def State.notice (s : State) (pid : Nat) (w : Word) : State :=
  match s.proc? pid with
  | none => s
  | some p => (s.noticeOf p w).noticePort pid w

/-- A port held by an armed cue slot, or by a fired SEND that waits for a credit (R385). -/
def Proc.portHeld (p : Proc) (q : Nat) : Bool :=
  p.cue.toList.any (fun c => match c with
    | some c => c.ctrl.toNat / 4 % 4 == 1 && c.ctrl.toNat / 16 % 16 == q
    | none => false)
  || p.cueWait.any (fun w => w.1 == q)

/-- A stream held by an armed cue slot (R385). -/
def Proc.streamHeld (p : Proc) (j : Nat) : Bool :=
  p.cue.toList.any (fun c => match c with
    | some c => c.ctrl.toNat / 4 % 4 == 2 && c.ctrl.toNat / 16 % 16 == j
    | none => false)

/-- An unfired KIND-1 trigger stands on a port (R435). -/
def Proc.triggered (p : Proc) (q : Nat) : Bool := p.triggers.any (fun t => t.1 == q)

end Sys2Proof.Machine
end

