-- ==== Sys2Proof/Machine/Spad.lean ====
section
/-!
DEFINITION. The scratchpad of a tile: its address map, errors and their correction, parity, the retirement of a
bank, and the store FIFOs (R239-R259).
-/

namespace Sys2Proof.Machine

/-! ## Addresses (R239) -/

/-- Slice of a tile-local address. -/
def spSlice (a : Nat) : Nat := a / 64 % 4
/-- Bank of a tile-local address. -/
def spBank (a : Nat) : Nat := a / 256 % 8
/-- Row of a tile-local address. -/
def spRow (a : Nat) : Nat := a / 2048 % 1024
/-- Word of a tile-local address within its line. -/
def spWord (a : Nat) : Nat := a / 8 % 8
/-- Data word number of a slice, bank, row and word. -/
def dataWord (slice bank row word : Nat) : Nat := row * 256 + bank * 32 + slice * 8 + word
/-- Understudy word number of a slice, row and word. -/
def underWord (slice row word : Nat) : Nat := slice * 8192 + row * 8 + word
/-- Key of an understudy word among the latent errors. -/
def underKey (u : Nat) : Nat := 262144 + u

/-- Data of a word of the data banks, as it stands. -/
def Tile.dataAt (t : Tile) (w : Nat) : Nat × Bool := (leNat (memBytes t.spad (8 * w) 8), t.spadPoison.contains w)

/-- A word of an understudy, as it stands. -/
def Tile.underAt (t : Tile) (u : Nat) : Nat × Bool := (leNat (memBytes t.under (8 * u) 8), t.underPoison.contains u)

/-- A data word written, its latent error gone. -/
def Tile.putData (t : Tile) (w x : Nat) (psn : Bool) : Tile :=
  { t with spad := memPutBytes t.spad (8 * w) (leBytes 8 x), spadPoison := nsPut t.spadPoison w psn
           errors := mdel t.errors w }

/-- An understudy word written. -/
def Tile.putUnder (t : Tile) (u x : Nat) (psn : Bool) : Tile :=
  { t with under := memPutBytes t.under (8 * u) (leBytes 8 x), underPoison := nsPut t.underPoison u psn
           unformed := nsPut t.unformed u false, errors := mdel t.errors (underKey u) }

/-- A slice of a tile. -/
def Tile.slice (t : Tile) (k : Nat) : Slice := vget t.slices k Slice.init

/-- A tile with a slice changed. -/
def Tile.modSlice (t : Tile) (k : Nat) (f : Slice → Slice) : Tile := { t with slices := vmod t.slices k f }

/-- A word carries an uncorrectable error. -/
def Tile.lost (t : Tile) (key : Nat) : Bool := mget t.errors key == some true

/-! ## Retirement (R251-R256) -/

/-- A bank retired, 8 for the understudy (R252, R255, R256) (DEDUCED, log 45). -/
def Tile.retireBank (t : Tile) (slice bank : Nat) : Tile :=
  let x := t.slice slice
  match x.st with
  | .normal =>
    if bank < 8 then
      t.modSlice slice (fun x =>
        { x with st := .sweeping bank 0, cec := x.cec.setIfInBounds bank 0, promoted := false })
    else t.modSlice slice (fun x => { x with st := .degraded 8, stale := [], cec := x.cec.setIfInBounds 8 0 })
  | .sweeping b _ =>
    { t.modSlice slice (fun x => { x with st := .failed b, stale := [], cec := x.cec.setIfInBounds bank 0 }) with withdrawn := true }
  | .degraded b =>
    { t.modSlice slice (fun x => { x with st := .failed b, stale := [], cec := x.cec.setIfInBounds bank 0 }) with withdrawn := true }
  | .failed _ => t

/-- The correctable-error count of a bank raised: a bank of a normal slice that reaches its threshold is retired, one of
a sweeping or degraded slice reported to the Prompter (R248, R249, R251) (DEDUCED, log 46). -/
def Tile.countError (t : Tile) (slice bank k : Nat) : Tile :=
  let x := t.slice slice
  let old := (vget x.cec bank 0).toNat
  let new := min 65535 (old + k)
  let thr := vget x.threshold bank 64
  let t' := t.modSlice slice (fun x => { x with cec := x.cec.setIfInBounds bank (BitVec.ofNat 16 new) })
  match x.st with
  | .normal => if thr ≤ new then t'.retireBank slice bank else t'
  | .failed _ => t'
  | _ => if old < thr ∧ thr ≤ new then { t' with reported := t'.reported ++ [(slice, bank)] } else t'

/-- A single-bit error of a word that is read, corrected and counted (R248). -/
def Tile.correct (t : Tile) (slice bank key : Nat) : Tile :=
  if mget t.errors key = some false then { t with errors := mdel t.errors key }.countError slice bank 1 else t

/-! ## Stale rows and parity (R244, R245) -/

/-- One delta XORed into an understudy row, `n` words from `w`; a single-bit error of a word it reads is corrected (R244,
R248). -/
def Tile.applyDelta (t : Tile) (slice : Nat) (e : Stale) (w : Nat) : Nat → Tile
  | 0 => t
  | n + 1 =>
    let u := underWord slice e.row w
    let d := (e.delta.toNat / 2 ^ (64 * w)) % 2 ^ 64
    let pd := e.pdelta.getLsbD w
    let t := t.correct slice 8 (underKey u)
    let (x, p) := t.underAt u
    let t' := if d = 0 ∧ pd = false then t
      else { t with under := memPutBytes t.under (8 * u) (leBytes 8 (x ^^^ d))
                    underPoison := nsPut t.underPoison u (p != pd) }
    t'.applyDelta slice e (w + 1) n

/-- Every entry of the stale-row table for one row brought to completion (R249). -/
def Tile.drainRow (t : Tile) (slice row : Nat) : Tile :=
  let mine := (t.slice slice).stale.filter (fun e => e.row == row)
  mine.foldl (fun t e => t.applyDelta slice e 0 8)
    (t.modSlice slice (fun x => { x with stale := x.stale.filter (fun e => e.row != row) }))

/-- The oldest entry of the table applied: a parity update (R244). -/
def Tile.parityUpdate (t : Tile) (slice : Nat) : Tile :=
  match (t.slice slice).stale with
  | [] => t
  | e :: rest => (t.modSlice slice (fun x => { x with stale := rest })).applyDelta slice e 0 8

/-- A delta entered in the table: into the open entry of its row, else a new one (R245). -/
def enterStale (l : List Stale) (row : Nat) (d : BitVec 512) (pd : BitVec 8) : List Stale :=
  match l with
  | [] => [{ row, delta := d, pdelta := pd }]
  | e :: es => if e.row = row then { e with delta := e.delta ^^^ d, pdelta := e.pdelta ^^^ pd } :: es
               else e :: enterStale es row d pd

/-! ## Reconstruction (R249, R250) -/

/-- XOR of a word position over the data banks from `b` up, one bank left out. -/
def Tile.xorBanks (t : Tile) (slice row word skip b : Nat) : Nat → Nat × Bool
  | 0 => (0, false)
  | n + 1 =>
    let (x, p) := t.xorBanks slice row word skip (b + 1) n
    if b = skip then (x, p)
    else let (y, q) := t.dataAt (dataWord slice b row word)
         (x ^^^ y, p != q)

/-- A word of the data banks from `b` up, one left out, is uncorrectable. -/
def Tile.anyLost (t : Tile) (slice row word skip b : Nat) : Nat → Bool
  | 0 => false
  | n + 1 => (b != skip && t.lost (dataWord slice b row word)) || t.anyLost slice row word skip (b + 1) n

/-- Every uncorrectable word of a row rewritten as zero with poison, `n` words (8 bank + word) from `k` up, and
their addresses (R250). -/
def Tile.zeroLost (t : Tile) (slice row k : Nat) : Nat → Tile × List Nat
  | 0 => (t, [])
  | n + 1 =>
    let w := dataWord slice (k / 8) row (k % 8)
    let (t', l) := if t.lost w then (t.putData w 0 true, [8 * w]) else (t, [])
    let (t'', l') := t'.zeroLost slice row (k + 1) n
    (t'', l ++ l')

/-- Single-bit errors of the words read at a word position, corrected and counted: `n` banks from `b` up, 8 the
understudy, one bank left out (R243, R248) (DEDUCED, log 46). -/
def Tile.correctParts (t : Tile) (slice row word skip b : Nat) : Nat → Tile
  | 0 => t
  | n + 1 =>
    let key := if b < 8 then dataWord slice b row word else underKey (underWord slice row word)
    (if b = skip then t else t.correct slice b key).correctParts slice row word skip (b + 1) n

/-- The understudy row written as the XOR of the eight data rows, `n` words from `w` (R248, R250). -/
def Tile.resync (t : Tile) (slice row w : Nat) : Nat → Tile
  | 0 => t
  | n + 1 =>
    let t := t.correctParts slice row w 8 0 8
    let (x, p) := t.xorBanks slice row w 8 0 8
    (t.putUnder (underWord slice row w) x p).resync slice row (w + 1) n

/-- A failed reconstruction of a word in a slice that keeps parity (R250): the tile and the addresses of the words
made poisoned. -/
def Tile.failRecon (t : Tile) (w : Nat) : Tile × List Nat :=
  let a := 8 * w
  let (t', l) := (t.putData w 0 true).zeroLost (spSlice a) (spRow a) 0 64
  (t'.resync (spSlice a) (spRow a) 0 8, a :: l)

/-- A word position of a row that no reconstruction of bank `b`'s word can be formed from (R250). -/
def Tile.partsLost (t : Tile) (slice row word b : Nat) : Bool :=
  t.anyLost slice row word b 0 8 || t.lost (underKey (underWord slice row word))

/-- The XOR of a word position over the other seven data banks and the understudy: bank `b`'s word (R243, R249). -/
def Tile.rebuilt (t : Tile) (slice row word b : Nat) : Nat × Bool :=
  let (x, p) := t.xorBanks slice row word b 0 8
  let (y, q) := t.underAt (underWord slice row word)
  (x ^^^ y, p != q)

/-- Error reconstruction of data word `w`, counted 8 errors of its bank (R249, R250, R253). -/
def Tile.errorRecon (t : Tile) (w : Nat) : Tile × List Nat :=
  let a := 8 * w
  let sl := spSlice a
  let row := spRow a
  let t := (t.drainRow sl row).correctParts sl row (spWord a) (spBank a) 0 9
  if t.partsLost sl row (spWord a) (spBank a) then t.failRecon w
  else
    let (x, p) := t.rebuilt sl row (spWord a) (spBank a)
    ((t.putData w x p).countError sl (spBank a) 8, [])

/-! ## Reading a word (R247-R254) -/

/-- Where the content of a data word is: in its bank, in the understudy, or in a failed slice. -/
inductive WordPlace where
  | bank | under | retiring | gone
  deriving DecidableEq, Repr

/-- Where the content of a word is (R252-R256). -/
def Slice.placeOf (x : Slice) (bank row : Nat) : WordPlace :=
  match x.st with
  | .normal => .bank
  | .sweeping b p => if bank = b then (if row < p then .under else .retiring) else .bank
  | .degraded b => if bank = b then .under else .bank
  | .failed _ => .gone

/-- A slice that keeps parity for a row (R253, R254). -/
def Slice.parity (x : Slice) (row : Nat) : Bool :=
  match x.st with
  | .normal => true
  | .sweeping _ p => decide (p ≤ row)
  | _ => false

/-- A word read: the tile, data, poison, and the addresses of words that failed (R248-R250, R253, R254). A word of
a failed slice is poisoned, its data the free value `x0` (R256) (DESIGN CHOICE, log 22). -/
def Tile.readWord (t : Tile) (w x0 : Nat) : Tile × Nat × Bool × List Nat :=
  let a := 8 * w
  let sl := spSlice a
  let row := spRow a
  let u := underWord sl row (spWord a)
  let x := t.slice sl
  match x.placeOf (spBank a) row with
  | .gone => (t, x0, true, [])
  | .retiring =>
    let (t, l) := t.errorRecon w
    let (d, p) := t.dataAt w
    (t, d, p, l)
  | .under =>
    let (t, l) := match mget t.errors (underKey u) with
      | none => (t, [])
      | some false => (t.correct sl 8 (underKey u), [])
      | some true => (t.putUnder u 0 true, [a])
    let (d, p) := t.underAt u
    (t, d, p, l)
  | .bank =>
    let (t, l) := match mget t.errors w with
      | none => (t, [])
      | some false => (t.correct sl (spBank a) w, [])
      | some true => if x.parity row then t.errorRecon w else (t.putData w 0 true, [a])
    let (d, p) := t.dataAt w
    (t, d, p, l)

/-- `n` words read from word `w` up: the tile, bytes, poison of each byte's word, and failed addresses. -/
def Tile.readWords (t : Tile) (w : Nat) (x0 : Nat → Nat) : Nat → Tile × List Byte × List Bool × List Nat
  | 0 => (t, [], [], [])
  | n + 1 =>
    let (t, d, p, l) := t.readWord w (x0 w)
    let (t, bs, ps, l') := t.readWords (w + 1) x0 n
    (t, leBytes 8 d ++ bs, List.replicate 8 p ++ ps, l ++ l')

/-! ## Writing a line (R244, R253-R256) -/

/-- A bank write of the line can be granted: a new stale entry, where it needs one, finds a place (R245). -/
def Tile.writeReady (t : Tile) (line : Nat) : Bool :=
  let x := t.slice (spSlice line)
  !x.parity (spRow line) || x.stale.any (fun e => e.row == spRow line) || decide (x.stale.length < 16)

/-- Bytes of a word merged under an enable mask, `n` bytes from `b`. -/
def mergeBytes (old new en b : Nat) : Nat → Nat
  | 0 => 0
  | n + 1 =>
    let x := if en.testBit b then new / 2 ^ (8 * b) % 256 else old / 2 ^ (8 * b) % 256
    x * 2 ^ (8 * b) + mergeBytes old new en (b + 1) n

/-- A word of a line write needs the old content: the slice keeps parity for the row, or the write is in part (R244,
R253). -/
def Tile.needsOld (t : Tile) (w en : Nat) : Bool :=
  let x := t.slice (spSlice (8 * w))
  en != 0 && x.placeOf (spBank (8 * w)) (spRow (8 * w)) != .gone && (en != 255 || x.parity (spRow (8 * w)))

/-- Enabled bytes of word `k` of a line write. -/
def SpadStore.enabled (e : SpadStore) (k : Nat) : Nat := e.enable.toNat / 2 ^ (8 * k) % 256

/-- The old words a line write needs are read, `n` from word `k` of the line: the tile and the addresses of words a
reconstruction failed on (R244, R249, R250). -/
def Tile.readOld (t : Tile) (e : SpadStore) (k : Nat) : Nat → Tile × List Nat
  | 0 => (t, [])
  | n + 1 =>
    let (t, l) := if t.needsOld (e.line / 8 + k) (e.enabled k) then
        let (t, _, _, l) := t.readWord (e.line / 8 + k) 0
        (t, l)
      else (t, [])
    let (t, l') := t.readOld e (k + 1) n
    (t, l ++ l')

/-- One word written over what stands there: tile, delta of the word, poison delta. A word that a sweep could not form
stays so under a write in part (R252). -/
def Tile.writeWord (t : Tile) (w en new : Nat) (psn whole : Bool) : Tile × Nat × Bool :=
  let a := 8 * w
  let u := underWord (spSlice a) (spRow a) (spWord a)
  let put := fun (t : Tile) (old : Nat × Bool) (f : Tile → Nat → Bool → Tile) =>
    let new' := mergeBytes old.1 new en 0 8
    let psn' := if en = 255 ∨ whole then psn else old.2 || psn
    (f t new' psn', old.1 ^^^ new', old.2 != psn')
  match (t.slice (spSlice a)).placeOf (spBank a) (spRow a) with
  | .gone => (t, 0, false)
  | .under => put t (t.underAt u) (fun t x q =>
      { t.putUnder u x q with unformed := nsPut t.unformed u (t.unformed.contains u && en != 255 && !whole) })
  | _ => put t (t.dataAt w) (fun t x q => t.putData w x q)

/-- Words of a line write, `n` from word `k` of the line: tile, delta over the line, poison delta. -/
def Tile.writeWords (t : Tile) (e : SpadStore) (k : Nat) : Nat → Tile × Nat × Nat
  | 0 => (t, 0, 0)
  | n + 1 =>
    let (t, d, pd) := if e.enabled k = 0 then (t, 0, false)
      else t.writeWord (e.line / 8 + k) (e.enabled k) (e.bytes.toNat / 2 ^ (64 * k) % 2 ^ 64) (e.poison.getLsbD k)
        (e.whole.getLsbD k)
    let (t, d', pd') := t.writeWords e (k + 1) n
    (t, d * 2 ^ (64 * k) + d', pd.toNat * 2 ^ k + pd')

/-- A line store performed (R244, R253): the old words first, with all that their reading does, then the new row and its
delta; the tile and the addresses of words a reconstruction failed on. -/
def Tile.writeLine (t : Tile) (e : SpadStore) : Tile × List Nat :=
  let sl := spSlice e.line
  let row := spRow e.line
  let (t, l) := t.readOld e 0 8
  let (t, d, pd) := t.writeWords e 0 8
  if (t.slice sl).parity row then
    (t.modSlice sl (fun x => { x with stale := enterStale x.stale row (BitVec.ofNat 512 d) (BitVec.ofNat 8 pd) }), l)
  else (t, l)

/-! ## Store FIFOs (R246) -/

/-- Key of a process's FIFO for a slice. -/
def fifoKey (pid slice : Nat) : Nat := 4 * pid + slice

/-- A process's FIFO for a slice. -/
def Tile.fifo (t : Tile) (pid slice : Nat) : List SpadStore := mgetD t.fifos (fifoKey pid slice) []

/-- A FIFO set; an empty one is not listed. -/
def Tile.setFifo (t : Tile) (pid slice : Nat) (l : List SpadStore) : Tile :=
  { t with fifos := if l.isEmpty then mdel t.fifos (fifoKey pid slice) else mset t.fifos (fifoKey pid slice) l }

/-- Stores of a process still in FIFOs. -/
def Tile.pendingStores (t : Tile) (pid : Nat) : List SpadStore :=
  t.fifo pid 0 ++ t.fifo pid 1 ++ t.fifo pid 2 ++ t.fifo pid 3

/-- Every store of the process numbered below `after` has left its FIFO. -/
def Tile.drained (t : Tile) (pid after : Nat) : Bool :=
  (t.pendingStores pid).all (fun e => decide (after ≤ e.seq))

/-- The entry at the head of a FIFO may be performed: a release waits for every earlier store (R368). -/
def Tile.headReady (t : Tile) (pid : Nat) (e : SpadStore) : Bool :=
  (!e.rel || t.drained pid e.seq) && t.writeReady e.line

/-- Bytes `a` to `a + n - 1` overlap an enabled byte of a pending store of the process (R246). -/
def Tile.overlaps (t : Tile) (pid a n : Nat) : Bool :=
  (t.pendingStores pid).any (fun e =>
    (List.range n).any (fun i => decide ((a + i) / 64 * 64 = e.line) && e.enable.getLsbD ((a + i) % 64)))

/-- A process's region holds the address (R240). -/
def Desc.holds (d : Desc) (a : Nat) : Bool := decide (4096 * d.spbase ≤ a) && decide (a < 4096 * (d.spbase + d.spsize))

/-- SpadCheck (R240): a cause, or none. -/
def Desc.spadCheck (d : Desc) (t : Word) (n : Nat) : Option Cause :=
  if t.toNat / 2 ^ 52 ≠ 0 ∨ t.toNat / 2 ^ 21 % 2 ^ 30 ≠ 0 then some 0x24
  else
    let a := t.toNat % 2 ^ 21
    if a < 4096 * d.spbase ∨ 4096 * (d.spbase + d.spsize) < a + n then some 0x23 else none

/-! ## On the state -/

/-- A process holds its tile: it is there, or its region is kept there (R39, R413). -/
def Proc.holdsTile (p : Proc) : Bool :=
  match p.st with
  | .retired => false
  | .preempted _ => p.kept
  | _ => true

/-- Failed words are entered in the fault record of the process whose region holds them (R250). -/
def State.noteFailed (s : State) (tile : Nat) : List Nat → State
  | [] => s
  | a :: l =>
    let s' := match s.procs.find? (fun x => x.2.tile == tile && x.2.holdsTile && x.2.desc.holds a) with
      | some (pid, _) => s.notice pid (noticeWord 0x41 2 0 a)
      | none => s
    s'.noteFailed tile l

/-- A read of `n` words from `lo` may be served by conflict reconstruction, with another effect than a read of its bank
would have: the slice is normal, the row not stale, and a word that would be read one way or the other has an error, none
of those rebuilt from an uncorrectable one (R243) (DEDUCED, log 88). -/
def Tile.conflictMatters (t : Tile) (lo n : Nat) : Bool :=
  let a := 8 * lo
  let sl := spSlice a
  let row := spRow a
  let ws := (List.range n).map (fun k => spWord (8 * (lo + k)))
  let keys := ws.flatMap (fun w => underKey (underWord sl row w) :: (List.range 8).map (fun b => dataWord sl b row w))
  decide ((t.slice sl).st = .normal) && (t.slice sl).stale.all (fun e => e.row != row)
    && t.errors.any (fun e => keys.contains e.1) && ws.all (fun w => !t.partsLost sl row w (spBank a))

/-- Words rebuilt from the other banks of the row, `n` from word `w` up (R243): tile, bytes, poison of each byte's word. -/
def Tile.conflictWords (t : Tile) (w : Nat) : Nat → Tile × List Byte × List Bool
  | 0 => (t, [], [])
  | n + 1 =>
    let a := 8 * w
    let t := t.correctParts (spSlice a) (spRow a) (spWord a) (spBank a) 0 9
    let (x, p) := t.rebuilt (spSlice a) (spRow a) (spWord a) (spBank a)
    let (t, bs, ps) := t.conflictWords (w + 1) n
    (t, leBytes 8 x ++ bs, List.replicate 8 p ++ ps)

/-- Words of one line read, by their bank or, where another read has it in that cycle, by conflict reconstruction (R243)
(DEDUCED, log 88). -/
def State.readLine (s : State) (tile lo n : Nat) (x0 : Nat → Nat) : State × List Byte × List Bool × List Nat :=
  let t := s.tile tile
  let (k, s) := if t.conflictMatters lo n then s.pick 2 else (0, s)
  if k = 0 then
    let (t, bs, ps, l) := t.readWords lo x0 n
    (s.setTile tile t, bs, ps, l)
  else
    let (t, bs, ps) := t.conflictWords lo n
    (s.setTile tile t, bs, ps, [])

/-- The lines of `n` words from `lo`, read in turn; `fuel` lines at most. -/
def State.readLines (s : State) (tile lo n : Nat) (x0 : Nat → Nat) : Nat → State × List Byte × List Bool × List Nat
  | 0 => (s, [], [], [])
  | fuel + 1 =>
    if n = 0 then (s, [], [], [])
    else
      let m := min n (8 - lo % 8)
      let (s, bs, ps, l) := s.readLine tile lo m x0
      let (s, bs', ps', l') := s.readLines tile (lo + m) (n - m) x0 fuel
      (s, bs ++ bs', ps ++ ps', l ++ l')

/-- A word that a sweep could not form, read in the understudy (R252). -/
def Tile.unformedAt (t : Tile) (w : Nat) : Bool :=
  let a := 8 * w
  (t.slice (spSlice a)).placeOf (spBank a) (spRow a) == .under && t.unformed.contains (underWord (spSlice a) (spRow a) (spWord a))

/-- A scratchpad read performed: bytes, poison of each byte's word, and whether a reconstruction failed, now or, for a word
of the understudy, when it was swept (R250, R252). -/
def State.spadRead (s : State) (tile a n : Nat) : State × List Byte × List Bool × Bool :=
  let t := s.tile tile
  let lo := a / 8
  let k := if n = 0 then 0 else (a + n - 1) / 8 - lo + 1
  let (s', bs, ps, l) := s.readLines tile lo k (fun w => (Config.failedWord s.draws w).toNat) (k / 8 + 2)
  let gone := t.slices.toList.any (fun x => match x.st with
    | .failed _ => true
    | _ => false)
  let s' := { s' with draws := if gone then s.draws + 1 else s.draws }
  (s'.noteFailed tile l, (bs.drop (a % 8)).take n, (ps.drop (a % 8)).take n,
    !l.isEmpty || (List.range k).any (fun i => t.unformedAt (lo + i)))

/-- Bytes of an enable mask and of a line for `bytes` stored at an address within one line. -/
def lineEnable (a n : Nat) : BitVec 64 := BitVec.ofNat 64 ((2 ^ n - 1) * 2 ^ (a % 64))

/-- Bytes of one more store to the line of an entry, which stands for both (R246). -/
def SpadStore.join (e y : SpadStore) : SpadStore :=
  let byteMask := (List.range 64).foldl (fun (m : BitVec 512) i => if y.enable.getLsbD i then m ||| 0xFF#512 <<< (8 * i) else m) 0
  { e with
    enable := e.enable ||| y.enable
    bytes := (e.bytes &&& ~~~byteMask) ||| (y.bytes &&& byteMask)
    poison := (e.poison &&& ~~~y.whole) ||| y.poison
    whole := e.whole ||| y.whole }

/-- A line entry joins the FIFO of its slice, with the next number (R246). -/
def State.enterStore (s : State) (pid : Nat) (e : SpadStore) : State :=
  match s.proc? pid with
  | none => s
  | some p =>
    let e := { e with seq := p.storeSeq }
    let s := s.setProc pid { p with storeSeq := p.storeSeq + 1 }
    s.modTile p.tile (fun t => t.setFifo pid (spSlice e.line) (t.fifo pid (spSlice e.line) ++ [e]))

/-- A store of at most a line enters its FIFO (R246). -/
def State.pushStore (s : State) (pid : Nat) (a : Nat) (bytes : List Byte) (poison : BitVec 8) (vec rel : Bool) :
    State :=
  s.enterStore pid
    { seq := 0, line := a / 64 * 64, enable := lineEnable a bytes.length
      bytes := BitVec.ofNat 512 (leNat bytes * 2 ^ (8 * (a % 64))), poison, vec, rel }

/-- The head of a FIFO performed and gone (R246). -/
def State.grantHead (s : State) (tile pid slice : Nat) : State :=
  let t := s.tile tile
  match t.fifo pid slice with
  | [] => s
  | e :: rest =>
    let (t', l) := (t.setFifo pid slice rest).writeLine e
    (s.setTile tile t').noteFailed tile l

/-- The slice whose head is the oldest store of the process. -/
def Tile.oldestSlice (t : Tile) (pid : Nat) : Option Nat :=
  ([0, 1, 2, 3].filterMap (fun k => (t.fifo pid k).head?.map (fun e => (e.seq, k)))).foldl
    (fun m x => match m with
      | none => some x
      | some y => if x.1 < y.1 then some x else m) none |>.map (·.2)

/-- Up to `fuel` grants of a process's stores, oldest first, as long as one numbered below `after` is pending; a
full stale-row table drains first (R241 rule 3, R245). -/
def State.flushGo (s : State) (tile pid after : Nat) : Nat → State
  | 0 => s
  | fuel + 1 =>
    let t := s.tile tile
    if t.drained pid after then s
    else match t.oldestSlice pid with
      | none => s
      | some k =>
        let ready := match (t.fifo pid k).head? with
          | some e => t.writeReady e.line
          | none => true
        let s := if ready then s else s.setTile tile (t.parityUpdate k)
        (s.grantHead tile pid k).flushGo tile pid after fuel

/-- The process's stores numbered below `after` are performed now (DEDUCED, log 15). -/
def State.flushStores (s : State) (pid after : Nat) : State :=
  match s.proc? pid with
  | none => s
  | some p => s.flushGo p.tile pid after 32

end Sys2Proof.Machine
end

