-- ==== Sys2Proof/Machine/Integer.lean ====
section
/-!
DEFINITION. Integer register, immediate, multiply and divide instructions (R120-R124).
-/

namespace Sys2Proof.Machine

/-! ## Operations on words -/

/-- 1 where a condition holds, otherwise 0. -/
def boolWord (b : Bool) : Word := if b then 1 else 0

/-- Number of leading zero bits, of the low `n` bits of a word (R120). -/
def leadZeros (x : Word) : Nat → Nat
  | 0 => 0
  | n + 1 => if x.getLsbD n then 0 else leadZeros x n + 1

/-- Number of trailing zero bits from bit `i` up, over `n` bits (R120). -/
def trailZeros (x : Word) (i : Nat) : Nat → Nat
  | 0 => 0
  | n + 1 => if x.getLsbD i then 0 else trailZeros x (i + 1) n + 1

/-- Number of one bits among the low `n` (R120). -/
def oneBits (x : Word) : Nat → Nat
  | 0 => 0
  | n + 1 => oneBits x n + (x.getLsbD n).toNat

/-- Bit `i` moved to bit 63 - i (R120). -/
def reverseBits (x : Word) : Word := x.reverse

/-- Byte `i` moved to byte 7 - i (R120). -/
def reverseBytes (x : Word) : Word := BitVec.ofNat 64 (leNat (leBytes 8 x.toNat).reverse)

/-- Shift amount: the low six bits (R120). -/
def shamt (x : Word) : Nat := x.toNat % 64

/-- DIV (R124). -/
def divSigned (b c : Word) : Word := if c = 0 then BitVec.allOnes 64 else BitVec.ofInt 64 (b.toInt.tdiv c.toInt)

/-- DIVU (R124). -/
def divUnsigned (b c : Word) : Word := if c = 0 then BitVec.allOnes 64 else BitVec.ofNat 64 (b.toNat / c.toNat)

/-- REM (R124). -/
def remSigned (b c : Word) : Word := if c = 0 then b else BitVec.ofInt 64 (b.toInt.tmod c.toInt)

/-- REMU (R124). -/
def remUnsigned (b c : Word) : Word := if c = 0 then b else BitVec.ofNat 64 (b.toNat % c.toNat)

/-- ga takes a function of gb and gc. -/
def State.binOp (s : State) (a b c : GReg) (f : Word → Word → Word) : Res :=
  s.withCur fun p => s.finishWr p a (f (p.rd b) (p.rd c))

/-- ga takes a function of gb. -/
def State.unOp (s : State) (a b : GReg) (f : Word → Word) : Res :=
  s.withCur fun p => s.finishWr p a (f (p.rd b))

/-! ## Register-register (R120) -/

/-- ADD (R120). -/
def execAdd (a b c : GReg) (s : State) : Res := s.binOp a b c fun x y => x + y

/-- SUB (R120). -/
def execSub (a b c : GReg) (s : State) : Res := s.binOp a b c fun x y => x - y

/-- AND (R120). -/
def execAnd (a b c : GReg) (s : State) : Res := s.binOp a b c fun x y => x &&& y

/-- OR (R120). -/
def execOr (a b c : GReg) (s : State) : Res := s.binOp a b c fun x y => x ||| y

/-- XOR (R120). -/
def execXor (a b c : GReg) (s : State) : Res := s.binOp a b c fun x y => x ^^^ y

/-- ANDN (R120). -/
def execAndn (a b c : GReg) (s : State) : Res := s.binOp a b c fun x y => x &&& ~~~y

/-- ORN (R120). -/
def execOrn (a b c : GReg) (s : State) : Res := s.binOp a b c fun x y => x ||| ~~~y

/-- SLL (R120). -/
def execSll (a b c : GReg) (s : State) : Res := s.binOp a b c fun x y => x <<< shamt y

/-- SRL (R120). -/
def execSrl (a b c : GReg) (s : State) : Res := s.binOp a b c fun x y => x >>> shamt y

/-- SRA (R120). -/
def execSra (a b c : GReg) (s : State) : Res := s.binOp a b c fun x y => x.sshiftRight (shamt y)

/-- ROL (R120). -/
def execRol (a b c : GReg) (s : State) : Res := s.binOp a b c fun x y => x.rotateLeft (shamt y)

/-- ROR (R120). -/
def execRor (a b c : GReg) (s : State) : Res := s.binOp a b c fun x y => x.rotateRight (shamt y)

/-- SLT (R120). -/
def execSlt (a b c : GReg) (s : State) : Res := s.binOp a b c fun x y => boolWord (x.slt y)

/-- SLTU (R120). -/
def execSltu (a b c : GReg) (s : State) : Res := s.binOp a b c fun x y => boolWord (x.ult y)

/-- MIN (R120). -/
def execMin (a b c : GReg) (s : State) : Res := s.binOp a b c fun x y => if y.slt x then y else x

/-- MAX (R120). -/
def execMax (a b c : GReg) (s : State) : Res := s.binOp a b c fun x y => if x.slt y then y else x

/-- MINU (R120). -/
def execMinu (a b c : GReg) (s : State) : Res := s.binOp a b c fun x y => if y.ult x then y else x

/-- MAXU (R120). -/
def execMaxu (a b c : GReg) (s : State) : Res := s.binOp a b c fun x y => if x.ult y then y else x

/-- CLZ (R120). -/
def execClz (a b : GReg) (s : State) : Res := s.unOp a b fun x => BitVec.ofNat 64 (leadZeros x 64)

/-- CTZ (R120). -/
def execCtz (a b : GReg) (s : State) : Res := s.unOp a b fun x => BitVec.ofNat 64 (trailZeros x 0 64)

/-- POPC (R120). -/
def execPopc (a b : GReg) (s : State) : Res := s.unOp a b fun x => BitVec.ofNat 64 (oneBits x 64)

/-- BREV (R120). -/
def execBrev (a b : GReg) (s : State) : Res := s.unOp a b fun x => reverseBits x

/-- BSWAP (R120). -/
def execBswap (a b : GReg) (s : State) : Res := s.unOp a b fun x => reverseBytes x

/-- SEXTB (R120). -/
def execSextb (a b : GReg) (s : State) : Res := s.unOp a b fun x => signExt (x.truncate 8)

/-- SEXTH (R120). -/
def execSexth (a b : GReg) (s : State) : Res := s.unOp a b fun x => signExt (x.truncate 16)

/-- SEXTW (R120). -/
def execSextw (a b : GReg) (s : State) : Res := s.unOp a b fun x => signExt (x.truncate 32)

/-- ZEXTW (R120). -/
def execZextw (a b : GReg) (s : State) : Res := s.unOp a b fun x => (x.truncate 32).zeroExtend 64

/-! ## Immediates (R121-R123) -/

/-- ADDI (R121). -/
def execAddi (a b : GReg) (imm : BitVec 16) (s : State) : Res := s.unOp a b fun x => x + signExt imm

/-- ANDI (R121). -/
def execAndi (a b : GReg) (imm : BitVec 16) (s : State) : Res := s.unOp a b fun x => x &&& imm.zeroExtend 64

/-- ORI (R121). -/
def execOri (a b : GReg) (imm : BitVec 16) (s : State) : Res := s.unOp a b fun x => x ||| imm.zeroExtend 64

/-- XORI (R121). -/
def execXori (a b : GReg) (imm : BitVec 16) (s : State) : Res := s.unOp a b fun x => x ^^^ imm.zeroExtend 64

/-- SLTI (R121). -/
def execSlti (a b : GReg) (imm : BitVec 16) (s : State) : Res := s.unOp a b fun x => boolWord (x.slt (signExt imm))

/-- SLTIU (R121). -/
def execSltiu (a b : GReg) (imm : BitVec 16) (s : State) : Res := s.unOp a b fun x => boolWord (x.ult (signExt imm))

/-- SLLI (R122). -/
def execSlli (a b : GReg) (n : BitVec 6) (s : State) : Res := s.unOp a b fun x => x <<< n.toNat

/-- SRLI (R122). -/
def execSrli (a b : GReg) (n : BitVec 6) (s : State) : Res := s.unOp a b fun x => x >>> n.toNat

/-- SRAI (R122). -/
def execSrai (a b : GReg) (n : BitVec 6) (s : State) : Res := s.unOp a b fun x => x.sshiftRight n.toNat

/-- Sixteen bits of a word replaced (R123). -/
def insertHalf (x : Word) (pos : BitVec 2) (imm : BitVec 16) : Word :=
  (x &&& ~~~(0xFFFF#64 <<< (16 * pos.toNat))) ||| (imm.zeroExtend 64 <<< (16 * pos.toNat))

/-- LIH (R123). -/
def execLih (a : GReg) (pos : BitVec 2) (imm : BitVec 16) (s : State) : Res :=
  s.unOp a a fun x => insertHalf x pos imm

/-! ## Multiply and divide (R124) -/

/-- MUL (R124). -/
def execMul (a b c : GReg) (s : State) : Res := s.binOp a b c fun x y => x * y

/-- MULH (R124). -/
def execMulh (a b c : GReg) (s : State) : Res := s.binOp a b c fun x y => BitVec.ofInt 64 (x.toInt * y.toInt / 2 ^ 64)

/-- MULHU (R124). -/
def execMulhu (a b c : GReg) (s : State) : Res := s.binOp a b c fun x y => BitVec.ofNat 64 (x.toNat * y.toNat / 2 ^ 64)

/-- DIV (R124). -/
def execDiv (a b c : GReg) (s : State) : Res := s.binOp a b c fun x y => divSigned x y

/-- DIVU (R124). -/
def execDivu (a b c : GReg) (s : State) : Res := s.binOp a b c fun x y => divUnsigned x y

/-- REM (R124). -/
def execRem (a b c : GReg) (s : State) : Res := s.binOp a b c fun x y => remSigned x y

/-- REMU (R124). -/
def execRemu (a b c : GReg) (s : State) : Res := s.binOp a b c fun x y => remUnsigned x y

end Sys2Proof.Machine
end

