-- ==== Sys2Proof/Machine/Float.lean ====
section
/-!
DEFINITION. Scalar FP32 instructions (R125, R126).
-/

namespace Sys2Proof.Machine

/-- The FP32 or BF16 pattern in the low bits of a register. -/
def lowBits (w : Nat) (x : Word) : Nat := x.toNat % 2 ^ w

/-- A word takes a result and its flags (R98, R125). -/
def State.fpFinish (s : State) (p : Proc) (a : GReg) (r : Nat × Flags) : State :=
  s.finishWr (p.raise r.2) a (BitVec.ofNat 64 r.1)

/-- ga takes a function of the FP32 values in gb and gc. -/
def State.fpBin (s : State) (a b c : GReg) (f : Nat → Nat → Nat × Flags) : Res :=
  s.withCur fun p => s.fpFinish p a (f (lowBits 32 (p.rd b)) (lowBits 32 (p.rd c)))

/-- A comparison of FP32 values; `raises` for one that raises NV on a NaN (R125). -/
def fpCompare (raises : Bool) (f : FVal → FVal → Bool) (x y : Nat) : Nat × Flags :=
  let u := fFp32.decode x
  let v := fFp32.decode y
  if u.isNan || v.isNan then (0, Flags.nvIf raises) else ((f u v).toNat, Flags.none)

/-- SrBits for a scalar conversion into ga (R96). -/
def Proc.srKey (p : Proc) (a : GReg) : Nat := srBits p.srseed (32 + a.toNat) 0

/-- FADD (R125). -/
def execFadd (a b c : GReg) (s : State) : Res := s.fpBin a b c fFp32.addEnc

/-- FSUB (R125). -/
def execFsub (a b c : GReg) (s : State) : Res := s.fpBin a b c fFp32.subEnc

/-- FMUL (R125). -/
def execFmul (cls : ACls) (a b c : GReg) (s : State) : Res := s.fpBin a b c (fFp32.mulEnc cls)

/-- FMA (R125): ga is the addend. -/
def execFma (cls : ACls) (a b c : GReg) (s : State) : Res :=
  s.withCur fun p =>
    s.fpFinish p a (fFp32.fmaEnc cls false (lowBits 32 (p.rd b)) (lowBits 32 (p.rd c)) (lowBits 32 (p.rd a)))

/-- FDIV (R126). -/
def execFdiv (a b c : GReg) (s : State) : Res := s.fpBin a b c fFp32.divEnc

/-- FSQRT (R126). -/
def execFsqrt (a b : GReg) (s : State) : Res :=
  s.withCur fun p => s.fpFinish p a (fFp32.sqrtEnc (lowBits 32 (p.rd b)))

/-- FMIN (R125). -/
def execFmin (a b c : GReg) (s : State) : Res := s.fpBin a b c fun x y => (fFp32.pickEnc false x y, Flags.none)

/-- FMAX (R125). -/
def execFmax (a b c : GReg) (s : State) : Res := s.fpBin a b c fun x y => (fFp32.pickEnc true x y, Flags.none)

/-- FCMPEQ (R125). -/
def execFcmpeq (a b c : GReg) (s : State) : Res := s.fpBin a b c (fpCompare false fun u v => !u.lt v && !v.lt u)

/-- FCMPLT (R125). -/
def execFcmplt (a b c : GReg) (s : State) : Res := s.fpBin a b c (fpCompare true fun u v => u.lt v)

/-- FCMPLE (R125). -/
def execFcmple (a b c : GReg) (s : State) : Res := s.fpBin a b c (fpCompare true fun u v => !v.lt u)

/-- FCVTIF (R125): to a 64-bit signed integer. -/
def execFcvtif (rm : RMode) (a b : GReg) (s : State) : Res :=
  s.withCur fun p =>
    let (n, f) := convertInt (etMin .i64) (etMax .i64) (fFp32.decode (lowBits 32 (p.rd b))) rm (p.srKey a)
    s.fpFinish p a (bitsOf 64 n, f)

/-- FCVTFI (R125): from a signed 64-bit integer. -/
def execFcvtfi (rm : RMode) (a b : GReg) (s : State) : Res :=
  s.withCur fun p => s.fpFinish p a (convertFlt fFp32 (FVal.ofInt (p.rd b).toInt) rm false (p.srKey a))

/-- FCVTBF (R125): FP32 to BF16. -/
def execFcvtbf (rm : RMode) (a b : GReg) (s : State) : Res :=
  s.withCur fun p => s.fpFinish p a (convertFlt fBf16 (fFp32.decode (lowBits 32 (p.rd b))) rm false (p.srKey a))

/-- FCVTFB (R125): BF16 to FP32, exact. -/
def execFcvtfb (a b : GReg) (s : State) : Res :=
  s.withCur fun p => s.fpFinish p a ((roundVal fFp32 (fBf16.decode (lowBits 16 (p.rd b)))).1, Flags.none)

end Sys2Proof.Machine
end

