-- ==== Sys2Proof/Machine/Branch.lean ====
section
/-!
DEFINITION. Branches and jumps, signature words, the control registers and the cue clock's reads (R133-R146, R380, R415).
-/

namespace Sys2Proof.Machine

/-- A conditional branch (R133). -/
def State.branch (s : State) (a b : GReg) (disp : BitVec 16) (f : Word → Word → Bool) : Res :=
  s.withCur fun p =>
    s.setCur { p with pc := if f (p.rd a) (p.rd b) then p.pc + 4 * signExt disp else p.pc + 4 }

/-- BEQ (R133). -/
def execBeq (a b : GReg) (disp : BitVec 16) (s : State) : Res := s.branch a b disp fun x y => x == y

/-- BNE (R133). -/
def execBne (a b : GReg) (disp : BitVec 16) (s : State) : Res := s.branch a b disp fun x y => x != y

/-- BLT (R133). -/
def execBlt (a b : GReg) (disp : BitVec 16) (s : State) : Res := s.branch a b disp fun x y => x.slt y

/-- BGE (R133). -/
def execBge (a b : GReg) (disp : BitVec 16) (s : State) : Res := s.branch a b disp fun x y => !x.slt y

/-- BLTU (R133). -/
def execBltu (a b : GReg) (disp : BitVec 16) (s : State) : Res := s.branch a b disp fun x y => x.ult y

/-- BGEU (R133). -/
def execBgeu (a b : GReg) (disp : BitVec 16) (s : State) : Res := s.branch a b disp fun x y => !x.ult y

/-- JAL (R134). -/
def execJal (a : GReg) (disp : BitVec 21) (s : State) : Res :=
  s.withCur fun p => s.setCur { p.wr a (p.pc + 4) with pc := p.pc + 4 * signExt disp }

/-- JALR (R135). -/
def execJalr (a b : GReg) (imm : BitVec 16) (s : State) : Res :=
  s.withCur fun p =>
    let t := p.rd b + signExt imm
    if t.toNat % 4 ≠ 0 then s.trapCur p 0x08 t
    else s.setCur { p.wr a (p.pc + 4) with pc := t }

/-- SIG (R415): no effect of its own; the issue keeps the signature state (R416). -/
def execSig (_sig : BitVec 16) (s : State) : Res := s.withCur fun p => s.finish p

end Sys2Proof.Machine
end

