-- ==== Sys2Proof/Machine/Access.lean ====
section
/-!
DEFINITION. How a scalar word's access to memory goes on its way: alignment, space, translation, requests, walks
joined, and what lets a parked access continue (R113-R115, R127-R132, R242, R246, R306-R319, R346, R366, R433).
-/

namespace Sys2Proof.Machine

/-- One access of a scalar word: its address, bytes, kind (R312), request, and whether it is a release. -/
structure Access where
  va : Word
  n : Nat
  kind : Nat
  req : ReqKind
  rel : Bool
  deriving DecidableEq, Repr

/-- Bytes of an access size (R127). -/
def szBytes : Sz → Nat
  | .b => 1 | .h => 2 | .w => 4 | .d => 8

/-- Bytes of a scalar atomic (R318). -/
def aszBytes : ASz → Nat
  | .w => 4 | .d => 8

/-- Effective address (R127). -/
def Proc.ea (p : Proc) (b : GReg) (disp : BitVec 12) : Word := p.rd b + signExt disp

/-- Bit 51 names device space (R128). -/
def inDevice (t : Word) : Bool := t.getLsbD 51

/-- An ordering code other than relaxed (R54). -/
def ordered (o : Ord) : Bool := o != .relaxed

/-- The access of an atomic (R318). -/
def Proc.amoAccess (p : Proc) (op : AOp) (sz : ASz) (ord : Ord) (a b c : GReg) : Access :=
  let n := aszBytes sz
  { va := p.rd b, n, kind := kRmw, rel := ordered ord
    req := .amo op n ((p.rd c).toNat % 2 ^ (8 * n)) ((p.rd a).toNat % 2 ^ (8 * n)) }

/-- The access a word makes next: a load, store or atomic its only one, a record the next eight bytes of it
(R129, R318, R346, R433). -/
def Proc.accessOf (p : Proc) (i : Instr) : Option Access :=
  match i with
  | .ld sz _ _ b d => some { va := p.ea b d, n := szBytes sz, kind := kRead, req := .read (szBytes sz), rel := false }
  | .ldu sz _ _ b d => some { va := p.ea b d, n := szBytes sz, kind := kRead, req := .read (szBytes sz), rel := false }
  | .st sz ord a b d =>
    let n := szBytes sz
    some { va := p.ea b d, n, kind := kWrite, rel := ordered ord
           req := .write (leBytes n ((p.rd a).toNat)) (List.replicate n false) }
  | .amoadd sz o a b c => some (p.amoAccess .add sz o a b c)
  | .amoand sz o a b c => some (p.amoAccess .and sz o a b c)
  | .amoor sz o a b c => some (p.amoAccess .or sz o a b c)
  | .amoxor sz o a b c => some (p.amoAccess .xor sz o a b c)
  | .amomin sz o a b c => some (p.amoAccess .min sz o a b c)
  | .amomax sz o a b c => some (p.amoAccess .max sz o a b c)
  | .amominu sz o a b c => some (p.amoAccess .minu sz o a b c)
  | .amomaxu sz o a b c => some (p.amoAccess .maxu sz o a b c)
  | .amoswap sz o a b c => some (p.amoAccess .swap sz o a b c)
  | .cas sz o a b c => some (p.amoAccess .cas sz o a b c)
  | .sconf b _ => some { va := p.rd b + BitVec.ofNat 64 p.record.length, n := 8, kind := kRead, req := .read 8, rel := false }
  | .xpost b _ => some { va := p.rd b + BitVec.ofNat 64 p.record.length, n := 8, kind := kRead, req := .read 8, rel := false }
  | _ => none

/-- Bytes of the record a word reads, 0 for a word that makes one access. -/
def recordBytes (i : Instr) : Nat :=
  match i with
  | .sconf _ _ => 48
  | .xpost _ _ => 32
  | _ => 0

/-- A cause raised by the word a process stands on: the word has no effect (R119, R395, R416). -/
def State.trapWord (s : State) (pid : Nat) (cause : Cause) (addr : Word := 0) (info : Word := 0) : State :=
  match s.proc? pid with
  | none => s
  | some p =>
    (s.setProc pid { p with sig := p.sigOld }).takeTrap pid { cause, origin := 0, pc := p.pc, addr, elem := 0, info }

/-- The die a tile lies on (R2). -/
def dieOf (tile : Nat) : Nat := tile / 96 % 4

/-- A miss joins the pending walk of its tenant and page, or begins one (R314). -/
def joinWalk (l : List Walk) (tenant vpage tile prio : Nat) : List Walk :=
  match l with
  | [] => [{ tenant, vpage, tiles := [tile], prio, result := none }]
  | w :: ws =>
    if w.tenant = tenant ∧ w.vpage = vpage ∧ w.result = none then
      { w with tiles := nsAdd w.tiles tile, prio := max w.prio prio } :: ws
    else w :: joinWalk ws tenant vpage tile prio

/-- A miss at a tile: with fewer than 64 outstanding, or its page among them, it goes to the die; else it waits
(R314). -/
def State.miss (s : State) (tile tenant va prio : Nat) : State :=
  let vpage := pageOf va
  let t := s.tile tile
  if t.misses.contains vpage || decide (t.misses.length < 64) then
    let s := s.setTile tile { t with misses := nsAdd t.misses vpage }
    { s with dies := vmod s.dies (dieOf tile) (fun d => { d with walks := joinWalk d.walks tenant vpage tile prio }) }
  else s

/-- One page asked for by a fetch, the vector unit or an engine of a process. -/
def State.wantPage (s : State) (p : Proc) (va : Nat) : State :=
  let s := s.miss p.tile p.tenant va p.eff
  if (s.tile p.tile).misses.contains (pageOf va) then s.modTile p.tile (fun t => { t with wanted := nsAdd t.wanted (pageOf va) })
  else s

/-- Pages asked for: what needs them waits (R314). -/
def State.want (s : State) (p : Proc) (l : List Nat) : State := l.foldl (fun s va => s.wantPage p va) s

/-- Every page of a list has been asked for. -/
def State.wants (s : State) (p : Proc) (l : List Nat) : Bool := l.all (fun va => (s.tile p.tile).wanted.contains (pageOf va))

/-- The device access of a parked word goes on as far as it can (R306, R312-R314, R316, R366). -/
def State.beginAccess (s : State) (pid : Nat) (a : Access) : State :=
  match s.proc? pid with
  | none => s
  | some p =>
    let va := a.va.toNat
    if !canonDev a.va then s.trapWord pid 0x24 a.va (transInfo 0 a.kind)
    else if a.rel && !(s.tile p.tile).drained pid p.storeSeq then s.setProc pid { p with pend := some .hold }
    else match tlbFind (s.tile p.tile).tlb va with
      | none => (s.setProc pid { p with pend := some (.walk va a.kind) }).miss p.tile p.tenant va p.eff
      | some l => match l.access va a.kind with
        | .error (c, level) => s.trapWord pid c a.va (transInfo level a.kind)
        | .ok place =>
          let (id, s) := s.sendTo (.proc pid) p.tenant place a.req p.eff
          s.setProc pid { p with pend := some (.sent id) }

/-- A parked process's access taken up again, where it waits for stores or for a translation. -/
def State.continueAccess (s : State) (pid : Nat) : State :=
  match s.proc? pid with
  | none => s
  | some p => match p.park with
    | none => s
    | some k => match p.accessOf k.instr, p.pend with
      | some a, some .hold => s.beginAccess pid a
      | some a, some (.walk _ _) => s.beginAccess pid a
      | _, _ => s

/-- Events bits set at the end of a cycle, after bits cleared (R353). -/
def Tile.evSet (t : Tile) (m : BitVec 256) : Tile := { t with events := t.events ||| m }

/-- One event bit of a process's window (DEDUCED, log 75). -/
def Desc.evBit (d : Desc) (n : Nat) : BitVec 256 := 1#256 <<< (d.evbase + n)

/-- Box-office answers whose words have left their FIFO set their event bits (R330); an access that waited for the
process's stores goes on (R366). -/
def State.settleStores (s : State) (pid : Nat) : State :=
  match s.proc? pid with
  | none => s
  | some p =>
    let t := s.tile p.tile
    let done := fun (q : Query) => match q.store with
      | some n => (t.pendingStores pid).all (fun e => e.seq != n)
      | none => false
    let bits := (p.queries.filter done).foldl (fun (m : BitVec 256) q => m ||| p.desc.evBit q.ev) 0
    let p' := { p with queries := p.queries.filter (fun q => !done q) }
    let s' := if bits = 0 then s else (s.setProc pid p').setTile p.tile (t.evSet bits)
    match p.pend with
    | some .hold => if t.drained pid p.storeSeq then s'.continueAccess pid else s'
    | _ => s'

/-- The stores of a process made so far are performed now, with what waited for them (DEDUCED, log 15). -/
def State.flushAll (s : State) (pid : Nat) : State :=
  match s.proc? pid with
  | none => s
  | some p => (s.flushStores pid p.storeSeq).settleStores pid

/-- A scratchpad read of a word: the state, and its bytes or the cause it traps with (R132, R250) (DEDUCED, log 14). -/
def State.spadLoad (s : State) (tile a n : Nat) : State × Except Cause (List Byte) :=
  let (s, b, ps, failed) := s.spadRead tile a n
  (s, if failed then .error 0x41 else if ps.any id then .error 0x40 else .ok b)

/-- A data word that only error reconstruction can serve (R249, R253). -/
def Tile.needsRecon (t : Tile) (w : Nat) : Bool :=
  let x := t.slice (spSlice (8 * w))
  match x.placeOf (spBank (8 * w)) (spRow (8 * w)) with
  | .retiring => true
  | .bank => t.lost w && x.parity (spRow (8 * w))
  | _ => false

/-- A scratchpad read of the current process is granted within the pass: no pending store overlaps, no word of it is to be
reconstructed, and no other client takes the bank; else it parks (R242, R246, R249) (DEDUCED, log 14). -/
def State.grantedNow (s : State) (pid tile a n : Nat) : Bool × State :=
  if (s.tile tile).overlaps pid a n || (s.tile tile).needsRecon (a / 8) then (false, s)
  else let (k, s) := s.pick 2
       (k == 0, s)

end Sys2Proof.Machine
end

