-- ==== Sys2Proof/Machine/Mesh.lean ====
section
/-!
DEFINITION. Where the parts of the module lie, the ports a path over the mesh and Viaduct leaves through, and the
reservations on them (R1-R3, R11, R297, R387, R388).
-/

namespace Sys2Proof.Machine

/-! ## Places (R1-R3, R297) -/

/-- Column of a compute die in the 2 x 2 arrangement, from the west (R1). -/
def dieColumn (die : Nat) : Nat := die % 2

/-- Row of a compute die, from the top (R1). -/
def dieRow (die : Nat) : Nat := die / 2

/-- The compute dies next to an I/O die, west or east (R1). -/
def besideIo (io : Nat) : List Nat := [io, io + 2]

/-- Device-wide column of a tile (R2). -/
def tileX (t : Nat) : Nat := t % 12 + 12 * dieColumn (t / 96)

/-- Device-wide row of a tile (R2). -/
def tileY (t : Nat) : Nat := t / 12 % 8 + 8 * dieRow (t / 96)

/-- The compute die of a memory server (R297). -/
def serverDie (k : Nat) : Nat := k / 64

/-- The stack a memory server is attached to: two on each compute die (R1, R297). -/
def serverStack (k : Nat) : Nat := 2 * serverDie k + k % 64 / 32

/-- The I/O die of a Viaduct port (R3). -/
def ioOfPort (k : Nat) : Nat := k / 18

/-- The I/O die of a PCIe function: host port A is on I/O die 0, host port B on I/O die 1 (R3). -/
def ioOfFn (fn : Nat) : Nat := fn / 33

/-! ## Paths (R11, R388) -/

/-- Directions a flit leaves a mesh node by; the last is the node's own tile. -/
inductive Dir where
  | east | west | south | north | here
  deriving DecidableEq, Repr

/-- An output port that takes reservations: of a mesh node, on one plane, which is the die-to-die link where it leads to
the next die; or of Viaduct (R387). -/
inductive OutPort where
  | mesh (x y : Nat) (dir : Dir) (plane : Nat)
  | viaduct (k : Nat)
  deriving DecidableEq, Repr

/-- An end of a path: a tile, or an I/O die. -/
inductive MeshEnd where
  | tile (t : Nat)
  | io (die : Nat)
  deriving DecidableEq, Repr

/-- Number of an end for the plane hash. -/
def MeshEnd.number : MeshEnd → Nat
  | .tile t => t
  | .io d => 384 + d

/-- The plane of a pair (R11) (DESIGN CHOICE, log 89). -/
def planeOf (a b : MeshEnd) : Nat := Config.planeHash a.number b.number % 4

/-- Ports along a row, from column `x0` to `x1`. -/
def rowPorts (y plane x0 x1 : Nat) : List OutPort :=
  if x0 ≤ x1 then (List.range (x1 - x0)).map (fun i => .mesh (x0 + i) y .east plane)
  else (List.range (x0 - x1)).map (fun i => .mesh (x0 - i) y .west plane)

/-- Ports along a column, from row `y0` to `y1`. -/
def columnPorts (x plane y0 y1 : Nat) : List OutPort :=
  if y0 ≤ y1 then (List.range (y1 - y0)).map (fun i => .mesh x (y0 + i) .south plane)
  else (List.range (y0 - y1)).map (fun i => .mesh x (y0 - i) .north plane)

/-- The ports a flit leaves through from one end to another: X first, then Y, the last the destination's own; an I/O die
is entered and left at its edge of the mesh in the tile's row (R1, R11, R394) (DEDUCED, log 62). -/
def meshPath (a b : MeshEnd) : List OutPort :=
  let plane := planeOf a b
  match a, b with
  | .tile s, .tile t =>
    rowPorts (tileY s) plane (tileX s) (tileX t) ++ columnPorts (tileX t) plane (tileY s) (tileY t)
      ++ [.mesh (tileX t) (tileY t) .here plane]
  | .tile s, .io d =>
    let edge := if d = 0 then 0 else 23
    rowPorts (tileY s) plane (tileX s) edge ++ [.mesh edge (tileY s) (if d = 0 then .west else .east) plane]
  | .io d, .tile t => rowPorts (tileY t) plane (if d = 0 then 0 else 23) (tileX t) ++ [.mesh (tileX t) (tileY t) .here plane]
  | .io _, .io _ => []

/-! ## Reservations (R387, R388) -/

/-- The four reservable resources. -/
inductive Reservable where
  | mesh | dieLink | viaduct | server
  deriving DecidableEq, Repr

/-- Grants of a cue frame (R387). -/
def Reservable.capacity : Reservable → Nat
  | .mesh => 1843
  | .dieLink => 1843
  | .viaduct => 2694
  | .server => 1472

/-- One unit: 1/64 of the capacity, rounded down (R387). -/
def Reservable.unit (r : Reservable) : Nat := r.capacity / 64

/-- Units any one resource admits in total (R387). -/
def unitLimit : Nat := 48

/-- Where an end of a channel is on the mesh; at another package, each live port of the group with its I/O die. -/
def State.endPlaces (s : State) (e : End) : List (MeshEnd × List OutPort) :=
  match e with
  | .proc pid _ | .fault pid => ((s.proc? pid).map (fun p => (MeshEnd.tile p.tile, []))).toList
  | .host fn _ => [(.io (ioOfFn fn), [])]
  | .remote pkg =>
    let group := mgetD s.routes pkg 0
    ((List.range 36).filter (fun k => group.getLsbD k)).map (fun k => (.io (ioOfPort k), [OutPort.viaduct k]))

/-- The ports a channel's tokens leave through, and its credits on the way back (R388) (DEDUCED, log 62). -/
def State.chanPorts (s : State) (x : Chan) : List OutPort :=
  (x.prods.flatMap (fun d => (s.endPlaces d.src).flatMap (fun a => (s.endPlaces x.consumer).flatMap (fun b =>
    meshPath a.1 b.1 ++ b.2 ++ meshPath b.1 a.1 ++ a.2)))).eraseDups

/-- No port is to carry more than 48 units (R387, R388) (DEDUCED, log 62). -/
def State.portsFit (s : State) : Bool :=
  let held := (s.chans.filter (fun x => x.2.resv != 0)).map (fun x => (x.2.resv, s.chanPorts x.2))
  held.all (fun x => x.2.all (fun port =>
    decide (held.foldl (fun n y => if y.2.contains port then n + y.1 else n) 0 ≤ unitLimit)))

end Sys2Proof.Machine
end

