-- ==== Sys2Proof/Machine/ScalarMem.lean ====
section
/-!
DEFINITION. Scalar loads, stores and atomics (R127-R132, R317-R319), and the events that complete them.
-/

namespace Sys2Proof.Machine

/-- What a load writes: its bytes, sign- or zero-extended (R129). -/
def loadValue (signed : Bool) (n : Nat) (b : List Byte) : Word :=
  if signed then BitVec.ofInt 64 (signedOf (8 * n) (leNat b)) else BitVec.ofNat 64 (leNat b)

/-- LD and LDU (R127-R132): the reply completes the load; before it, the checks, then a park for a device reply, or
for a scratchpad bank that is not granted at once. -/
def State.load (s : State) (i : Instr) (signed : Bool) (sz : Sz) (a b : GReg) (disp : BitVec 12) : Res :=
  s.withCur fun p =>
    let n := szBytes sz
    let t := p.ea b disp
    match p.pend with
    | some (.done r) => s.finishWr { p with pend := none } a (loadValue signed n r.bytes)
    | some (.sent _) => s.parkCur p .memoryReply i
    | some (.walk _ _) => s.parkCur p .memoryReply i
    | _ =>
      if t.toNat % n ≠ 0 then s.trapCur p 0x08 t
      else if inDevice t then
        (s.parkCur { p with pend := none } .memoryReply i).beginAccess s.cur
          { va := t, n, kind := kRead, req := .read n, rel := false }
      else match p.desc.spadCheck t n with
        | some c => s.trapCur p c t
        | none =>
          let (now, s) := s.grantedNow s.cur p.tile t.toNat n
          if now then
            match s.spadLoad p.tile t.toNat n with
            | (s, .error c) => s.trapCur p c t
            | (s, .ok bytes) => s.finishWr { p with pend := none } a (loadValue signed n bytes)
          else s.parkCur { p with pend := some .spad } .memoryReply i

/-- LD (R129): sign-extended. -/
def execLd (sz : Sz) (ord : Ord) (a b : GReg) (disp : BitVec 12) (s : State) : Res :=
  s.load (.ld sz ord a b disp) true sz a b disp

/-- LDU (R129): zero-extended. -/
def execLdu (sz : Sz) (ord : Ord) (a b : GReg) (disp : BitVec 12) (s : State) : Res :=
  s.load (.ldu sz ord a b disp) false sz a b disp

/-- ST (R127-R132, R246): to the store FIFO of the slice, or a request to the server. -/
def execSt (sz : Sz) (ord : Ord) (a b : GReg) (disp : BitVec 12) (s : State) : Res :=
  s.withCur fun p =>
    let i := Instr.st sz ord a b disp
    let n := szBytes sz
    let t := p.ea b disp
    let bytes := leBytes n (p.rd a).toNat
    match p.pend with
    | some (.done _) => s.finish { p with pend := none }
    | some (.sent _) => s.parkCur p .memoryReply i
    | some (.walk _ _) => s.parkCur p .memoryReply i
    | some .hold => s.parkCur p .memoryReply i
    | _ =>
      if t.toNat % n ≠ 0 then s.trapCur p 0x08 t
      else if inDevice t then
        (s.parkCur { p with pend := none } .memoryReply i).beginAccess s.cur
          { va := t, n, kind := kWrite, req := .write bytes (List.replicate n false), rel := ordered ord }
      else match p.desc.spadCheck t n with
        | some c => s.trapCur p c t
        | none =>
          if ((s.tile p.tile).fifo s.cur (spSlice t.toNat)).length < 8 then
            (s.finish { p with pend := none }).pushStore s.cur t.toNat bytes 0 false (ordered ord)
          else s.parkCur { p with pend := some .spad } .memoryReply i

/-- A scalar atomic (R317-R319): checks, then one request to the server; the reply gives the old value. -/
def State.atomic (s : State) (i : Instr) (op : AOp) (sz : ASz) (ord : Ord) (a b c : GReg) : Res :=
  s.withCur fun p =>
    let n := aszBytes sz
    let t := p.rd b
    match p.pend with
    | some (.done r) => s.finishWr { p with pend := none } a (loadValue true n r.bytes)
    | some (.sent _) => s.parkCur p .memoryReply i
    | some (.walk _ _) => s.parkCur p .memoryReply i
    | some .hold => s.parkCur p .memoryReply i
    | _ =>
      if t.toNat % n ≠ 0 then s.trapCur p 0x08 t
      else if !inDevice t then s.trapCur p 0x70 t
      else (s.parkCur { p with pend := none } .memoryReply i).beginAccess s.cur (p.amoAccess op sz ord a b c)

/-- AMOADD (R318). -/
def execAmoadd (sz : ASz) (ord : Ord) (a b c : GReg) (s : State) : Res :=
  s.atomic (.amoadd sz ord a b c) .add sz ord a b c

/-- AMOAND (R318). -/
def execAmoand (sz : ASz) (ord : Ord) (a b c : GReg) (s : State) : Res :=
  s.atomic (.amoand sz ord a b c) .and sz ord a b c

/-- AMOOR (R318). -/
def execAmoor (sz : ASz) (ord : Ord) (a b c : GReg) (s : State) : Res :=
  s.atomic (.amoor sz ord a b c) .or sz ord a b c

/-- AMOXOR (R318). -/
def execAmoxor (sz : ASz) (ord : Ord) (a b c : GReg) (s : State) : Res :=
  s.atomic (.amoxor sz ord a b c) .xor sz ord a b c

/-- AMOMIN (R318). -/
def execAmomin (sz : ASz) (ord : Ord) (a b c : GReg) (s : State) : Res :=
  s.atomic (.amomin sz ord a b c) .min sz ord a b c

/-- AMOMAX (R318). -/
def execAmomax (sz : ASz) (ord : Ord) (a b c : GReg) (s : State) : Res :=
  s.atomic (.amomax sz ord a b c) .max sz ord a b c

/-- AMOMINU (R318). -/
def execAmominu (sz : ASz) (ord : Ord) (a b c : GReg) (s : State) : Res :=
  s.atomic (.amominu sz ord a b c) .minu sz ord a b c

/-- AMOMAXU (R318). -/
def execAmomaxu (sz : ASz) (ord : Ord) (a b c : GReg) (s : State) : Res :=
  s.atomic (.amomaxu sz ord a b c) .maxu sz ord a b c

/-- AMOSWAP (R318). -/
def execAmoswap (sz : ASz) (ord : Ord) (a b c : GReg) (s : State) : Res :=
  s.atomic (.amoswap sz ord a b c) .swap sz ord a b c

/-- CAS (R318). -/
def execCas (sz : ASz) (ord : Ord) (a b c : GReg) (s : State) : Res :=
  s.atomic (.cas sz ord a b c) .cas sz ord a b c

/-! ## The events that complete them -/

/-- An access has brought bytes: the rest of a record is asked for, or the condition of the park is met. -/
def State.accessDone (s : State) (pid : Nat) (p : Proc) (i : Instr) (r : Reply) : State :=
  let need := recordBytes i
  if need = 0 then s.setProc pid { p with pend := some (.done r) }
  else
    let p := { p with record := p.record ++ r.bytes }
    if need ≤ p.record.length then s.setProc pid { p with pend := some (.done r) }
    else match p.accessOf i with
      | none => s
      | some a =>
        if inDevice a.va then (s.setProc pid p).beginAccess pid a
        else match p.desc.spadCheck a.va a.n with
          | some c => (s.setProc pid p).trapWord pid c a.va
          | none => s.setProc pid { p with pend := some .spad }

/-- MEMORY_REPLY (R114, R132, R318): the reply meets the park, or its error, or the poison a load would consume,
traps the process. -/
def State.memoryReply (s : State) (pid : Nat) : State :=
  match s.proc? pid with
  | none => s
  | some p => match p.park, p.pend with
    | some k, some (.sent id) =>
      match s.replies.find? (fun r => r.id == id), p.accessOf k.instr with
      | some r, some a =>
        let s := { s with replies := s.replies.filter (fun x => x.id != id) }
        let poisoned := a.kind = kRead ∧ r.poison.contains true
        if p.st = .trapped then
          let again := r.cause.isSome || decide poisoned || recordBytes k.instr != 0
          s.setProc pid { p with pend := if again then none else some (.done r), record := [] }
        else match r.cause with
        | some c => s.trapWord pid c a.va
        | none =>
          if poisoned then s.trapWord pid 0x40 a.va
          else s.accessDone pid p k.instr r
      | _, _ => s
    | _, _ => s

/-- MEMORY_REPLY. -/
def execMemoryReply (pid : Nat) (s : State) : Res := .next (s.memoryReply pid)

/-- SCRATCHPAD_LOAD_GRANT (R242, R246): the parked read is performed, unless a pending store overlaps it. -/
def State.spadLoadGrant (s : State) (pid : Nat) : State :=
  match s.proc? pid with
  | none => s
  | some p => match p.park, p.pend with
    | some k, some .spad =>
      match p.accessOf k.instr with
      | none => s
      | some a =>
        if a.kind ≠ kRead ∨ inDevice a.va ∨ (s.tile p.tile).overlaps pid a.va.toNat a.n then s
        else match s.spadLoad p.tile a.va.toNat a.n with
          | (s, .error c) => s.trapWord pid c a.va
          | (s, .ok b) => match s.proc? pid with
            | none => s
            | some p => s.accessDone pid p k.instr { Reply.ack 0 (.proc pid) with bytes := b }
    | _, _ => s

/-- SCRATCHPAD_LOAD_GRANT. -/
def execScratchpadLoadGrant (pid : Nat) (s : State) : Res := .next (s.spadLoadGrant pid)

/-- SPAD_STORE_GRANT (R246): the head of the FIFO is performed once its bank write can be granted. -/
def State.spadStoreGrant (s : State) (tile pid slice : Nat) : State :=
  let t := s.tile tile
  match t.fifo pid slice with
  | [] => s
  | e :: _ => if t.headReady pid e then (s.grantHead tile pid slice).settleStores pid else s

/-- SPAD_STORE_GRANT. -/
def execSpadStoreGrant (tile pid : Nat) (slice : BitVec 2) (s : State) : Res :=
  .next (s.spadStoreGrant tile pid slice.toNat)

/-- PARITY_UPDATE (R244): the oldest entry of the table is applied. -/
def execParityUpdate (tile : Nat) (slice : BitVec 2) (s : State) : Res :=
  .next (s.setTile tile ((s.tile tile).parityUpdate slice.toNat))

/-- A parked load of the tile that is to read a data word. -/
def State.loaderOf (s : State) (tile w : Nat) : Option Nat :=
  (s.procs.find? (fun x => x.2.tile == tile && x.2.pend == some .spad
    && (match x.2.park.bind (fun k => x.2.accessOf k.instr) with
      | some a => a.kind == kRead && !inDevice a.va && decide (a.va.toNat / 8 ≤ w) && decide (w ≤ (a.va.toNat + a.n - 1) / 8)
      | none => false))).map (·.1)

/-- A store at the head of a FIFO that needs the old content of a data word. -/
def Tile.storeNeeds (t : Tile) (w : Nat) : Bool :=
  t.fifos.any (fun f => match f.2.head? with
    | some e => decide (e.line / 64 = w / 8) && e.enable.toNat / 2 ^ (8 * (w % 8)) % 256 != 0
    | none => false)

/-- ERROR_RECONSTRUCTION (R249-R251): an uncorrectable word of a slice that keeps parity for the row is rebuilt for the
parked load that reads it, which it is returned to, or for the store that needs its old content; nothing is checked
that nothing reads. -/
def execErrorReconstruction (tile word : Nat) (s : State) : Res :=
  .next (
    let t := s.tile tile
    let w := word % 262144
    if t.lost w && (t.slice (spSlice (8 * w))).parity (spRow (8 * w)) then
      match s.loaderOf tile w with
      | some pid => s.spadLoadGrant pid
      | none =>
        if t.storeNeeds w then
          let (t, l) := t.errorRecon w
          (s.setTile tile t).noteFailed tile l
        else s
    else s)

/-- One word position of a sweep step (R252): the bank's word copied, or zero with poison where it cannot be formed;
the tile and the addresses of words made poisoned (DEDUCED, log 45). -/
def Tile.sweepWord (t : Tile) (slice bank row word : Nat) : Tile × List Nat :=
  let u := underWord slice row word
  let a := 8 * dataWord slice bank row word
  let t := t.correctParts slice row word bank 0 9
  if t.partsLost slice row word bank then
    let lostAt := (List.range 8).filter (fun b => b != bank && t.lost (dataWord slice b row word))
    let t := lostAt.foldl (fun t b => t.putData (dataWord slice b row word) 0 true) t
    ({ t.putUnder u 0 true with unformed := nsPut t.unformed u true }, a :: lostAt.map (fun b => 8 * dataWord slice b row word))
  else
    let (x, p) := t.rebuilt slice row word bank
    (t.putUnder u x p, [])

/-- Word positions of a sweep step, `n` from `w`. -/
def Tile.sweepRow (t : Tile) (slice bank row w : Nat) : Nat → Tile × List Nat
  | 0 => (t, [])
  | n + 1 =>
    let (t, l) := t.sweepWord slice bank row w
    let (t, l') := t.sweepRow slice bank row (w + 1) n
    (t, l ++ l')

/-- SWEEP_STEP (R252): one row that is not stale goes on to the understudy; after the last the slice is degraded. -/
def State.sweepStep (s : State) (tile slice : Nat) : State :=
  let t := s.tile tile
  match (t.slice slice).st with
  | .sweeping b p =>
    if (t.slice slice).stale.any (fun e => e.row == p) then s
    else
      let (t, l) := t.sweepRow slice b p 0 8
      let next : SliceState := if 1024 ≤ p + 1 then .degraded b else .sweeping b (p + 1)
      (s.setTile tile (t.modSlice slice (fun x => { x with st := next, promoted := false }))).noteFailed tile l
  | _ => s

/-- SWEEP_STEP. -/
def execSweepStep (tile : Nat) (slice : BitVec 2) (s : State) : Res := .next (s.sweepStep tile slice.toNat)

/-- SWEEP_PROMOTE (R253): a waiting step is raised to rule 2 of the arbitration. -/
def execSweepPromote (tile : Nat) (slice : BitVec 2) (s : State) : Res :=
  .next (
    let t := s.tile tile
    match (t.slice slice.toNat).st with
    | .sweeping _ _ => s.setTile tile (t.modSlice slice.toNat (fun x => { x with promoted := true }))
    | _ => s)

/-! ## Servers and walks (R298-R304, R314) -/

/-- Of one source, the oldest request queued at a server (R300). -/
def State.oldestOf (s : State) (l : List Req) (r : Req) : Bool :=
  l.all (fun x => !s.sameAgent x.src r.src || decide (r.age ≤ x.age))

/-- The process whose reservation covers a request (R301, R345). -/
def Source.holder : Source → Option Nat
  | .proc pid => some pid
  | .engine pid _ => some pid
  | _ => none

/-- A request's rank at its server: within budget first and there by age alone; then priority, raised to that of later
requests of its source; then age (R300, R389, R390). -/
def State.reqRank (s : State) (k : Nat) (l : List Req) (r : Req) : Nat × Nat × Nat :=
  let within := match r.src.holder with
    | none => false
    | some pid => match s.proc? pid with
      | none => false
      | some p => decide (mgetD (s.server k).granted pid 0 < Reservable.server.unit * p.resvUnits)
  let prio := (l.filter (fun x => s.sameAgent x.src r.src)).foldl (fun m x => max m x.prio) r.prio
  if within then (0, 0, r.age) else (1, 7 - min prio 7, r.age)

/-- The request a server performs next (R300) (DEDUCED, log 43). -/
def State.nextReqAt (s : State) (k : Nat) : Option Req :=
  let mine := s.queued.filter (fun r => serverOf r.pa == k)
  let heads := mine.filter (s.oldestOf mine)
  heads.foldl (fun best r => match best with
    | none => some r
    | some b =>
      let x := s.reqRank k mine r
      let y := s.reqRank k mine b
      if x.1 < y.1 ∨ (x.1 = y.1 ∧ (x.2.1 < y.2.1 ∨ (x.2.1 = y.2.1 ∧ x.2.2 < y.2.2))) then some r else some b) none

/-- A message's packet has been written: the count of its message, and with the last the ARRIVED count (R436). -/
def State.countMessage (s : State) (pkg : Nat) (m : MsgPkt) : State :=
  let mine := fun (x : Message) => x.pkg == pkg && x.srcQ == m.srcQ && x.post == m.post
  let got := (match s.messages.find? mine with
    | some x => x.got
    | none => 0) + m.bytes.length
  let rest := s.messages.filter (fun x => !mine x)
  if got < m.len then
    { s with messages := rest ++ [{ pkg, srcQ := m.srcQ, post := m.post, tqh := m.tqh, len := m.len, got }] }
  else
    let s := { s with messages := rest }
    match s.queueOf m.tqh with
    | none => s
    | some (pid, q) => s.modProc pid (fun p => { p with xq := vmod p.xq q (fun x => { x with arrived := x.arrived + 1 }) })

/-- The reply to another package's request leaves once all of it has been performed (R427, R436). -/
def State.answerRemote (s : State) (rid : Nat) (r : Reply) : State :=
  match s.accepted.find? (fun a => a.req == rid) with
  | none => s
  | some a =>
    let s := { s with accepted := s.accepted.filter (fun x => x.req != rid) }
    let rep : RemRep := match r.cause with
      | some c => .nak c
      | none => .done r.bytes r.poison r.ok (r.flags.toWord.setWidth 5)
    match a.msg with
    | none => { s with vout := s.vout ++ [.reply a.pkg a.id rep] }
    | some m =>
      if s.accepted.any (fun x => x.pkg == a.pkg && x.id == a.id) then s
      else { s.countMessage a.pkg m with
             vout := s.vout ++ [.msgReply a.pkg m.srcQ { post := m.post, off := m.off, rep := .done [] [] true 0 }] }

/-- A server's reply goes to its requester: over the mesh, or to another package. -/
def State.giveReply (s : State) (r : Reply) : State :=
  match r.src with
  | .remote _ _ => s.answerRemote r.id r
  | _ => { s with replies := s.replies ++ [r] }

/-- SERVER_ACCESS (R298-R303): one queued request is performed at one instant and its reply sent; an access of a
holder counts against its budget (R389). -/
def State.serverAccess (s : State) (k : Nat) : State :=
  match s.nextReqAt k with
  | none => s
  | some r =>
    let s := { s with queued := s.queued.filter (fun x => x.id != r.id) }
    let (s, reply) := s.perform r.id r.src r.pa r.kind
    let s := match r.src.holder with
      | some pid => s.modServer k (fun v => { v with granted := mset v.granted pid (mgetD v.granted pid 0 + 1) })
      | none => s
    s.giveReply reply

/-- SERVER_ACCESS. -/
def execServerAccess (server : Nat) (s : State) : Res := .next (s.serverAccess server)

/-- Physical address of byte `off` of a server's local memory (R297). -/
def serverPa (k off : Nat) : Nat :=
  let block := off / 512
  let line := k ^^^ (block % 256) ^^^ (block / 256 % 256) ^^^ (block / 65536 % 64)
  block * 2 ^ 17 + line * 512 + off % 512

/-- Rows of 1 KiB at a server (R297, R304). -/
def serverRows : Nat := 1953125

/-- REFRESH_SCRUB (R304): the row is refreshed and one 64-byte column of it scrubbed; column w mod 16 in window w,
which ends once every row has been refreshed. -/
def State.refreshScrub (s : State) (k row : Nat) : State :=
  let col := (s.server k).refreshed / serverRows % 16
  let off := (row % serverRows) * 1024 + col * 64
  let pa := serverPa k off
  let s := (s.readHalf (pa / 32)).readHalf (pa / 32 + 1)
  s.modServer k (fun v => { v with refreshed := v.refreshed + 1 })

/-- REFRESH_SCRUB. -/
def execRefreshScrub (server row : Nat) (s : State) : Res := .next (s.refreshScrub server row)

/-- The path of an address above a level, naming a pointer entry in the walk cache. -/
def walkPath (va level : Nat) : Nat := va / levelBytes level

/-- A cached pointer (R314). -/
def cacheFind (c : List (Nat × Nat × Nat × Nat)) (tenant level path : Nat) : Option Nat :=
  match c with
  | [] => none
  | (t, l, p, table) :: rest => if t = tenant ∧ l = level ∧ p = path then some table else cacheFind rest tenant level path

/-- The table and level a walk goes on from: past the pointers found in the walk cache (R314). -/
def cachedFrom (c : List (Nat × Nat × Nat × Nat)) (tenant va table level : Nat) : Nat → Nat × Nat
  | 0 => (table, level)
  | fuel + 1 => match cacheFind c tenant level (walkPath va level) with
    | some t => cachedFrom c tenant va t (level + 1) fuel
    | none => (table, level)

/-- A pointer kept in a walk cache of 4,096 entries (R314). -/
def cachePut (c : List (Nat × Nat × Nat × Nat)) (tenant level path table : Nat) : List (Nat × Nat × Nat × Nat) :=
  (if 4096 ≤ c.length then c.drop 1 else c) ++ [(tenant, level, path, table)]

/-- The effective priority of a walk: the highest, now, of the processes that wait for it (R314, R390). -/
def State.walkPrio (s : State) (w : Walk) : Nat :=
  let waits := s.procs.filter (fun x => w.tiles.contains x.2.tile && (match x.2.pend with
    | some (.walk va _) => va / 4096 % 2 ^ 36 == w.vpage
    | _ => false))
  let asked := waits.isEmpty || w.tiles.any (fun t => (s.tile t).wanted.contains w.vpage)
  waits.foldl (fun m x => max m x.2.eff) (if asked then w.prio else 0)

/-- Highest effective priority, then oldest, among walks not yet taken (R314, R390). -/
def State.nextWalk (s : State) (l : List Walk) : Option Nat :=
  (l.zipIdx.filter (fun x => x.1.unit == none && x.1.result == none)).foldl
    (fun (best : Option (Nat × Nat)) x => match best with
      | none => some (s.walkPrio x.1, x.2)
      | some b => if b.1 < s.walkPrio x.1 then some (s.walkPrio x.1, x.2) else some b) none |>.map (·.2)

/-- The state with a walk of a die changed. -/
def State.putWalk (s : State) (die k : Nat) (w : Walk) : State :=
  { s with dies := vmod s.dies die (fun d => { d with walks := d.walks.set k w }) }

/-- An entry of a walk asked for by its walk unit, an ordinary read at the walk's priority (R299, R314). -/
def State.askEntry (s : State) (die unit pa : Nat) (w : Walk) : State := (s.sendReq (.walk die unit) pa (.read 8) (s.walkPrio w)).2

/-- A walk goes on from a table: the first entry on its path that the walk cache does not hold is asked for (R314). -/
def State.walkRead (s : State) (die k unit : Nat) (w : Walk) (table level : Nat) : State :=
  let va := w.vpage * 4096
  let (table, level) := cachedFrom (vget s.dies die Die.init).cache w.tenant va table level 3
  (s.askEntry die unit (table + 8 * levelIndex va level) w).putWalk die k
    { w with unit := some unit, table, level, run := none, again := false }

/-- A walk begins at the root (R306, R307). -/
def State.walkStart (s : State) (die k unit : Nat) (w : Walk) : State :=
  match mget s.tenants w.tenant with
  | none => s.putWalk die k { w with unit := some unit, result := some (.bad 0x20 1) }
  | some t => s.walkRead die k unit w t.root 1

/-- The entry a walk has read: it ends, goes on at the table the entry names, or reads the first leaf of a run (R307,
R310, R314). -/
def State.walkGot (s : State) (die k unit : Nat) (w : Walk) (r : Reply) : State :=
  let ends := fun (l : Leaf) => s.putWalk die k { w with result := some l }
  let va := w.vpage * 4096
  if w.again then s.walkStart die k unit w
  else if r.poison.any id then ends (.bad 0x2A w.level)
  else match w.run, readPte (leNat r.bytes) w.level with
    | _, .fault c => ends (.bad c w.level)
    | some size, .leaf size' l => ends (if size' = size then l else .bad 0x28 w.level)
    | some _, .pointer _ => ends (.bad 0x28 w.level)
    | none, .pointer t =>
      ({ s with dies := vmod s.dies die (fun d => { d with cache := cachePut d.cache w.tenant w.level (walkPath va w.level) t }) }).walkRead
        die k unit w t (w.level + 1)
    | none, .leaf size l =>
      let i := levelIndex va w.level
      let j := i - i % runLeaves size
      if j = i then ends l
      else (s.askEntry die unit (w.table + 8 * j) w).putWalk die k { w with run := some size }

/-- WALK (R314): an entry that a walk unit has read is dealt with; else a free unit, of sixteen, takes a pending walk. -/
def State.walkStep (s : State) (die : Nat) : State :=
  let l := (vget s.dies die Die.init).walks
  match l.zipIdx.find? (fun x => x.1.result.isNone && x.1.unit.any (fun u => s.replies.any (fun r => r.src == .walk die u))) with
  | some (w, k) =>
    let u := w.unit.getD 0
    match s.takeSource (.walk die u) with
    | some (s, r) => s.walkGot die k u w r
    | none => s
  | none =>
    match (List.range 16).find? (fun u => l.all (fun w => w.unit != some u)), s.nextWalk l with
    | some u, some k => match l[k]? with
      | some w => s.walkStart die k u w
      | none => s
    | _, _ => s

/-- WALK. -/
def execWalk (die : Nat) (s : State) : Res := .next (s.walkStep die)

/-- A fault that a walk returned, for a process that waits for it (R316): the walk ended at a page, too. -/
def State.walkAnswer (s : State) (pid : Nat) (leaf : Leaf) : State :=
  match s.proc? pid with
  | none => s
  | some p => match p.park, p.pend with
    | some k, some (.walk va kind) =>
      match p.accessOf k.instr with
      | none => s
      | some a => match leaf.access va kind with
        | .error (c, level) => s.trapWord pid c a.va (transInfo level kind)
        | .ok place =>
          let (id, s) := s.sendTo (.proc pid) p.tenant place a.req p.eff
          s.setProc pid { p with pend := some (.sent id) }
    | _, _ => s

/-- Processes of a tile that wait for a page. -/
def State.waitingFor (s : State) (tile vpage : Nat) : List Nat :=
  (s.procs.filter (fun x => x.2.tile == tile && (match x.2.pend with
    | some (.walk va _) => va / 4096 % 2 ^ 36 == vpage
    | _ => false))).map (·.1)

/-- Processes of a tile that wait for any page (R314: misses beyond the 64 are taken up as places come free). -/
def State.waitingMiss (s : State) (tile : Nat) : List Nat :=
  (s.procs.filter (fun x => x.2.tile == tile && (match x.2.pend with
    | some (.walk _ _) => true
    | _ => false))).map (·.1)

/-- A walk's result at one tile: its TLB filled, and every waiting access goes on or traps (R313, R314, R316). -/
def State.walkAtTile (s : State) (w : Walk) (leaf : Leaf) (tile : Nat) : State :=
  let waiting := s.waitingFor tile w.vpage
  let s := s.modTile tile (fun t =>
    { t with misses := nsDel t.misses w.vpage, tlb := tlbFill t.tlb (w.vpage * 4096) leaf, wanted := nsDel t.wanted w.vpage
             denied := match leaf, t.wanted.contains w.vpage with
               | .bad _ _, true => t.denied ++ [(w.vpage, leaf)]
               | _, _ => t.denied })
  let s := waiting.foldl (fun s pid => s.walkAnswer pid leaf) s
  (s.waitingMiss tile).foldl (fun s pid => s.continueAccess pid) s

/-- WALK_COMPLETE (R314): the first walk whose entries have been read returns to every waiting tile. -/
def State.walkComplete (s : State) (die : Nat) : State :=
  let d := vget s.dies die Die.init
  match d.walks.find? (fun w => w.result != none) with
  | none => s
  | some w => match w.result with
    | none => s
    | some leaf =>
      let s := { s with dies := vmod s.dies die (fun d => { d with walks := d.walks.erase w }) }
      w.tiles.foldl (fun s t => s.walkAtTile w leaf t) s

/-- WALK_COMPLETE. -/
def execWalkComplete (die : Nat) (s : State) : Res := .next (s.walkComplete die)

end Sys2Proof.Machine
end

