-- ==== Sys2Proof/Machine/VReg.lean ====
section
/-!
DEFINITION. The vector register file as members of convoys see it: rows, elements, slots, poison, masks, stream
heads, and how a member acts on one canonical group (R182-R195, R204-R208, R226).
-/

namespace Sys2Proof.Machine

/-! ## Rows, elements and slots (R183-R185, R90) -/

/-- `w` bits of a number at a place replaced. -/
def putField (x lo w v : Nat) : Nat := x - x / 2 ^ lo % 2 ^ w * 2 ^ lo + v % 2 ^ w * 2 ^ lo

/-- A map entry set, one equal to zero not listed. -/
def mput0 {w : Nat} (m : AMap (BitVec w)) (k : Nat) (x : BitVec w) : AMap (BitVec w) :=
  if x = 0 then mdel m k else mset m k x

/-- `n` bytes of a row from byte `off`, as a number. -/
def Proc.rowBytes (p : Proc) (row off n : Nat) : Nat := (mgetD p.rows row 0).toNat / 2 ^ (8 * off) % 2 ^ (8 * n)

/-- One of `n` bytes of a row from byte `off` is poisoned (R185). -/
def Proc.rowPsn (p : Proc) (row off n : Nat) : Bool := (mgetD p.rowPoison row 0).toNat / 2 ^ off % 2 ^ n != 0

/-- `n` bytes of a row written, with their poison. -/
def Proc.putRow (p : Proc) (row off n x : Nat) (psn : Bool) : Proc :=
  let d := putField (mgetD p.rows row 0).toNat (8 * off) (8 * n) x
  let q := putField (mgetD p.rowPoison row 0).toNat off n (if psn then 2 ^ n - 1 else 0)
  { p with rows := mput0 p.rows row (BitVec.ofNat 4096 d), rowPoison := mput0 p.rowPoison row (BitVec.ofNat 512 q) }

/-- VLMAX (R184, R286). -/
def vlmax (t : ETy) (l : Nat) : Nat := if t = .mx4 then 896 * l else 512 * l / etSize t

/-- Element `e` of `s` bytes of the register whose first row is `base`. -/
def Proc.elem (p : Proc) (base s e : Nat) : Nat := p.rowBytes (base + e * s / 512) (e * s % 512) s

/-- Its poison. -/
def Proc.elemPsn (p : Proc) (base s e : Nat) : Bool := p.rowPsn (base + e * s / 512) (e * s % 512) s

/-- An element written (R195). -/
def Proc.putElem (p : Proc) (base s e x : Nat) (psn : Bool) : Proc :=
  p.putRow (base + e * s / 512) (e * s % 512) s x psn

/-- Slot `u` of a `.mx4` register: 18 bytes, the scale lowest (R90). -/
def Proc.slotAt (p : Proc) (base u : Nat) : Nat := p.rowBytes (base + u / 28) (18 * (u % 28)) 18

/-- Its poison. -/
def Proc.slotPsn (p : Proc) (base u : Nat) : Bool := p.rowPsn (base + u / 28) (18 * (u % 28)) 18

/-- Bytes 504 to 511 of a row made zero (R91). -/
def Proc.zeroTail (p : Proc) (row : Nat) : Proc := p.putRow row 504 8 0 false

/-- A slot written but for the last bytes of its row: the status byte follows the scale (R91). -/
def Proc.putSlotBody (p : Proc) (base u x : Nat) (psn : Bool) : Proc :=
  let status := if x % 256 = 255 then 0 else 1
  p.putRow (base + u / 28) (18 * (u % 28)) 18 (putField x 8 8 status) psn

/-- A slot written, and row bytes 504 to 511 made zero (R91). -/
def Proc.putSlot (p : Proc) (base u x : Nat) (psn : Bool) : Proc := (p.putSlotBody base u x psn).zeroTail (base + u / 28)

/-- Scale byte of a slot value. -/
def slotScale (x : Nat) : Nat := x % 256

/-- E2M1 code `j` of a slot value. -/
def slotCode (x j : Nat) : Nat := x / 2 ^ (16 + 4 * j) % 16

/-! ## Masks (R186) -/

/-- Bit `e` of a mask register; k0 reads as all ones. -/
def Proc.maskBit (p : Proc) (k : KReg) (e : Nat) : Bool := k == 0 || (mgetD p.masks k.toNat 0).testBit e

/-- One bit of a mask number set. -/
def setBitTo (x e : Nat) (b : Bool) : Nat := if x.testBit e = b then x else if b then x + 2 ^ e else x - 2 ^ e

/-- Mask bits written; k0 discards them. -/
def Proc.putMask (p : Proc) (k : KReg) (l : List (Nat × Bool)) : Proc :=
  if k = 0 then p
  else
    let x := l.foldl (fun x b => setBitTo x b.1 b.2) (mgetD p.masks k.toNat 0)
    { p with masks := if x = 0 then mdel p.masks k.toNat else mset p.masks k.toNat x }

/-- Every bit at or above `n` cleared. -/
def Proc.clipMask (p : Proc) (k : KReg) (n : Nat) : Proc :=
  if k = 0 then p
  else
    let x := mgetD p.masks k.toNat 0 % 2 ^ n
    { p with masks := if x = 0 then mdel p.masks k.toNat else mset p.masks k.toNat x }

/-! ## What a convoy gives its members -/

/-- The first relative row of each stream head, once bound (R183, R337, R339). -/
structure VCtx where
  g : Vector Word 32
  lrows : Nat
  heads : List (Option Nat)
  xtab0 : Word
  xtab1 : Word
  seed : Word
  grant : Grant
  deriving DecidableEq, Repr

/-- A cause a member stops on, with what the raising rule names. -/
structure VStop where
  cause : Cause
  addr : Word
  info : Word
  /-- What the stop itself writes (R202). -/
  put : List VWrite := []
  deriving DecidableEq, Repr

/-- What a member leaves: what it writes, and general registers to be written at retirement (R190). -/
abbrev VRes := Except VStop (List VWrite × List (Nat × Word))

/-- Gen(n) (R204). -/
def VCtx.gen (c : VCtx) (r : GReg) : Word := if r = 0 then 0 else c.g[r.toNat]

/-- First relative row of a vector register or head (R183, R207). -/
def VCtx.base (c : VCtx) (v : VReg) : Nat :=
  if v.toNat < 24 then v.toNat * c.lrows else ((c.heads[v.toNat - 24]?).getD none).getD 0

/-- Active (R204). -/
def VCtx.active (_c : VCtx) (h : VHdr) (p : Proc) (n e : Nat) : Bool :=
  decide (e < n) && (p.maskBit h.km e != h.kn)

/-- Active elements of a canonical group, among the first `n` (R108). -/
def VCtx.groupOf (c : VCtx) (h : VHdr) (p : Proc) (n g : Nat) : List Nat :=
  ((List.range 64).map (64 * g + ·)).filter (fun e => c.active h p n e)

/-- Active elements among the first `n`. -/
def VCtx.actives (c : VCtx) (h : VHdr) (p : Proc) (n : Nat) : List Nat :=
  (List.range n).filter (fun e => c.active h p n e)

/-- Active units of a permutation, all of them (R226). -/
def VCtx.units (c : VCtx) (h : VHdr) (p : Proc) : List Nat :=
  if h.et = .mx4 then (List.range (28 * c.lrows)).filter (fun u => c.active h p (896 * c.lrows) (32 * u))
  else c.actives h p (vlmax h.et c.lrows)

/-- Units of a register (R226). -/
def unitCount (t : ETy) (l : Nat) : Nat := if t = .mx4 then 28 * l else vlmax t l

/-- A unit: its value and poison. -/
def Proc.unit (p : Proc) (base : Nat) (t : ETy) (u : Nat) : Nat × Bool :=
  if t = .mx4 then (p.slotAt base u, p.slotPsn base u) else (p.elem base (etSize t) u, p.elemPsn base (etSize t) u)

/-- A unit written. -/
def Proc.putUnit (p : Proc) (base : Nat) (t : ETy) (u : Nat) (x : Nat × Bool) : Proc :=
  if t = .mx4 then p.putSlot base u x.1 x.2 else p.putElem base (etSize t) u x.1 x.2

/-- The writes of one unit: a slot, and the end of its row made zero (R91); or an element. -/
def unitWrites (base : Nat) (t : ETy) (u : Nat) (x : Nat × Bool) : List VWrite :=
  if t = .mx4 then [.slot base u x.1 x.2, .tail (base + u / 28)] else [.elem base (etSize t) u x.1 x.2]

/-- Poison of one unit set or cleared, its value kept. -/
def markUnit (base : Nat) (t : ETy) (u : Nat) (psn : Bool) : VWrite :=
  if t = .mx4 then .mark (base + u / 28) (18 * (u % 28)) 18 psn
  else .mark (base + u * etSize t / 512) (u * etSize t % 512) (etSize t) psn

/-- Poison of bytes set or cleared, their value kept. -/
def Proc.markRow (p : Proc) (row off n : Nat) (psn : Bool) : Proc :=
  let q := putField (mgetD p.rowPoison row 0).toNat off n (if psn then 2 ^ n - 1 else 0)
  { p with rowPoison := mput0 p.rowPoison row (BitVec.ofNat 512 q) }

/-- One write made (R195). -/
def Proc.put1 (p : Proc) (w : VWrite) : Proc :=
  match w with
  | .elem base size e x psn => p.putElem base size e x psn
  | .slot base u x psn => p.putSlotBody base u x psn
  | .tail row => p.zeroTail row
  | .mark row off n psn => p.markRow row off n psn
  | .bits k l => p.putMask k l
  | .clip k n => p.clipMask k n
  | .flags f => p.raise f
  | .replay => { p with replays := if p.replays = BitVec.allOnes 32 then p.replays else p.replays + 1 }

/-- Writes made in order. -/
def Proc.puts (p : Proc) (l : List VWrite) : Proc := l.foldl Proc.put1 p

/-- The zero unit (R226). -/
def zeroUnit (t : ETy) : Nat × Bool := if t = .mx4 then (256, false) else (0, false)

/-- Elements written together: index, value and poison of each. -/
def elemWrites (base s : Nat) (l : List (Nat × Nat × Bool)) : List VWrite :=
  l.map (fun x => .elem base s x.1 x.2.1 x.2.2)

/-- Results with flags of some elements, written to a register and ORed into VFLAGS (R98). -/
def flaggedWrites (base s : Nat) (l : List (Nat × (Nat × Flags) × Bool)) : List VWrite :=
  elemWrites base s (l.map (fun x => (x.1, x.2.1.1, x.2.2))) ++ [.flags (l.foldl (fun f x => f.or x.2.1.2) Flags.none)]

/-- Canonical groups of a type (R108). -/
def groupsOf (t : ETy) (l : Nat) : Nat := vlmax t l / 64

/-! ## Members -/

/-- A member's part in a convoy: how many groups it acts on, whether it is spanning, and what it does on a group,
or whole where it is spanning, to a process as it finds it. -/
structure Member where
  groups : Nat
  spanning : Bool
  run : Nat → Proc → VRes

/-- A member that writes vector elements of a group from a function of their index (R195). -/
def VCtx.mapMember (c : VCtx) (h : VHdr) (vd : VReg) (f : Proc → Nat → Nat × Bool) : Member :=
  { groups := groupsOf h.et c.lrows, spanning := false
    run := fun g p =>
      let n := vlmax h.et c.lrows
      .ok (elemWrites (c.base vd) (etSize h.et) ((c.groupOf h p n g).map (fun e => (e, f p e))), []) }

/-- The same with flags. -/
def VCtx.mapFlagged (c : VCtx) (h : VHdr) (vd : VReg) (n : Nat) (f : Proc → Nat → (Nat × Flags) × Bool) : Member :=
  { groups := groupsOf h.et c.lrows, spanning := false
    run := fun g p => .ok (flaggedWrites (c.base vd) (etSize h.et) ((c.groupOf h p n g).map (fun e => (e, f p e))), []) }

/-- A member that writes mask bits of a group; the last group clears the bits at or above VLMAX (R186). -/
def VCtx.maskMember (c : VCtx) (h : VHdr) (kd : KReg) (f : Proc → List Nat → Except VStop (List (Nat × Bool) × Flags)) :
    Member :=
  let n := vlmax h.et c.lrows
  { groups := groupsOf h.et c.lrows, spanning := false
    run := fun g p =>
      match f p (c.groupOf h p n g) with
      | .error e => .error e
      | .ok (l, fl) =>
        .ok ([.bits kd l, .flags fl] ++ (if g + 1 = groupsOf h.et c.lrows then [.clip kd n] else []), []) }

/-- A spanning member that writes units formed from the process as it stands (R194). -/
def VCtx.spanUnits (c : VCtx) (h : VHdr) (vd : VReg) (f : Proc → List (Nat × Nat × Bool)) : Member :=
  { groups := 0, spanning := true, run := fun _ p => .ok ((f p).flatMap (fun x => unitWrites (c.base vd) h.et x.1 x.2), []) }

/-- Poison consumed (R208). -/
def poisonStop : VStop := { cause := 0x40, addr := 0, info := 0 }

end Sys2Proof.Machine
end

