-- ==== Sys2Proof/Machine/VCompute.lean ====
section
/-!
DEFINITION. The members that compute: integer and floating arithmetic, conversion, compares and masks,
permutations, reductions and scans (R203, R211-R238).
-/

namespace Sys2Proof.Machine

/-! ## Operands -/

/-- Val of a source element with its poison (R204). -/
def VCtx.intVal (c : VCtx) (t : ETy) (v : VReg) (p : Proc) (e : Nat) : Int × Bool :=
  (etInt t (p.elem (c.base v) (etSize t) e), p.elemPsn (c.base v) (etSize t) e)

/-- The pattern of a source element with its poison. -/
def VCtx.pat (c : VCtx) (t : ETy) (v : VReg) (p : Proc) (e : Nat) : Nat × Bool :=
  (p.elem (c.base v) (etSize t) e, p.elemPsn (c.base v) (etSize t) e)

/-- The immediate I of R206, read under the type. -/
def immVal (t : ETy) (imm : BitVec 16) : Int := etInt t (bitsOf (etWidth t) imm.toInt)

/-- An integer operation with a register operand (R211). -/
def VCtx.intReg (c : VCtx) (h : VHdr) (vd va vb : VReg) (f : ETy → Int → Int → Int) : Member :=
  c.mapMember h vd fun p e =>
    let a := c.intVal h.et va p e
    let b := c.intVal h.et vb p e
    (bitsOf (etWidth h.et) (f h.et a.1 b.1), a.2 || b.2)

/-- An integer operation with an immediate operand (R206, R211). -/
def VCtx.intImm (c : VCtx) (h : VHdr) (vd va : VReg) (imm : BitVec 16) (f : ETy → Int → Int → Int) : Member :=
  c.mapMember h vd fun p e =>
    let a := c.intVal h.et va p e
    (bitsOf (etWidth h.et) (f h.et a.1 (immVal h.et imm)), a.2)

/-- An integer operation of one operand. -/
def VCtx.intUn (c : VCtx) (h : VHdr) (vd va : VReg) (f : ETy → Int → Int) : Member :=
  c.mapMember h vd fun p e =>
    let a := c.intVal h.et va p e
    (bitsOf (etWidth h.et) (f h.et a.1), a.2)

/-! ## Integer results (R211) -/

/-- Sat (R211). -/
def satInt (t : ETy) (x : Int) : Int := max (min x (etMax t)) (etMin t)

/-- The w-bit pattern of a value. -/
def patOf (t : ETy) (x : Int) : Nat := bitsOf (etWidth t) x

/-- Shift amount: the low log2(w) bits (R211). -/
def vshamt (t : ETy) (b : Int) : Nat := (b % (etWidth t : Nat)).toNat

/-- a + b. -/
def fAdd (_ : ETy) (a b : Int) : Int := a + b
/-- a - b. -/
def fSub (_ : ETy) (a b : Int) : Int := a - b
/-- Sat(a + b). -/
def fAdds (t : ETy) (a b : Int) : Int := satInt t (a + b)
/-- Sat(a - b). -/
def fSubs (t : ETy) (a b : Int) : Int := satInt t (a - b)
/-- a * b. -/
def fMul (_ : ETy) (a b : Int) : Int := a * b
/-- floor(a * b / 2^w). -/
def fMulh (t : ETy) (a b : Int) : Int := a * b / (2 ^ etWidth t : Nat)
/-- The smaller. -/
def fMin (_ : ETy) (a b : Int) : Int := if b < a then b else a
/-- The larger. -/
def fMax (_ : ETy) (a b : Int) : Int := if a < b then b else a
/-- Bitwise and. -/
def fAnd (t : ETy) (a b : Int) : Int := (patOf t a &&& patOf t b : Nat)
/-- Bitwise or. -/
def fOr (t : ETy) (a b : Int) : Int := (patOf t a ||| patOf t b : Nat)
/-- Bitwise exclusive or. -/
def fXor (t : ETy) (a b : Int) : Int := (patOf t a ^^^ patOf t b : Nat)
/-- a * 2^(b mod w). -/
def fSll (t : ETy) (a b : Int) : Int := a * (2 ^ vshamt t b : Nat)
/-- The pattern of a shifted right, zeros entering. -/
def fSrl (t : ETy) (a b : Int) : Int := (patOf t a / 2 ^ vshamt t b : Nat)
/-- The pattern of a read as two's complement, shifted right. -/
def fSra (t : ETy) (a b : Int) : Int := signedOf (etWidth t) (patOf t a) / (2 ^ vshamt t b : Nat)

/-- VADD (R211). -/
def memVadd (h : VHdr) (vd va vb : VReg) (c : VCtx) : Member := c.intReg h vd va vb fAdd

/-- VADD, immediate form (R206, R211). -/
def memVaddImm (h : VHdr) (vd va : VReg) (imm : BitVec 16) (c : VCtx) : Member := c.intImm h vd va imm fAdd

/-- VSUB (R211). -/
def memVsub (h : VHdr) (vd va vb : VReg) (c : VCtx) : Member := c.intReg h vd va vb fSub

/-- VSUB, immediate form (R206, R211). -/
def memVsubImm (h : VHdr) (vd va : VReg) (imm : BitVec 16) (c : VCtx) : Member := c.intImm h vd va imm fSub

/-- VADDS (R211). -/
def memVadds (h : VHdr) (vd va vb : VReg) (c : VCtx) : Member := c.intReg h vd va vb fAdds

/-- VADDS, immediate form (R206, R211). -/
def memVaddsImm (h : VHdr) (vd va : VReg) (imm : BitVec 16) (c : VCtx) : Member := c.intImm h vd va imm fAdds

/-- VSUBS (R211). -/
def memVsubs (h : VHdr) (vd va vb : VReg) (c : VCtx) : Member := c.intReg h vd va vb fSubs

/-- VSUBS, immediate form (R206, R211). -/
def memVsubsImm (h : VHdr) (vd va : VReg) (imm : BitVec 16) (c : VCtx) : Member := c.intImm h vd va imm fSubs

/-- VMUL (R211). -/
def memVmul (h : VHdr) (vd va vb : VReg) (c : VCtx) : Member := c.intReg h vd va vb fMul

/-- VMUL, immediate form (R206, R211). -/
def memVmulImm (h : VHdr) (vd va : VReg) (imm : BitVec 16) (c : VCtx) : Member := c.intImm h vd va imm fMul

/-- VMULH (R211). -/
def memVmulh (h : VHdr) (vd va vb : VReg) (c : VCtx) : Member := c.intReg h vd va vb fMulh

/-- VMULH, immediate form (R206, R211). -/
def memVmulhImm (h : VHdr) (vd va : VReg) (imm : BitVec 16) (c : VCtx) : Member := c.intImm h vd va imm fMulh

/-- VMIN (R211). -/
def memVmin (h : VHdr) (vd va vb : VReg) (c : VCtx) : Member := c.intReg h vd va vb fMin

/-- VMIN, immediate form (R206, R211). -/
def memVminImm (h : VHdr) (vd va : VReg) (imm : BitVec 16) (c : VCtx) : Member := c.intImm h vd va imm fMin

/-- VMAX (R211). -/
def memVmax (h : VHdr) (vd va vb : VReg) (c : VCtx) : Member := c.intReg h vd va vb fMax

/-- VMAX, immediate form (R206, R211). -/
def memVmaxImm (h : VHdr) (vd va : VReg) (imm : BitVec 16) (c : VCtx) : Member := c.intImm h vd va imm fMax

/-- VAND (R211). -/
def memVand (h : VHdr) (vd va vb : VReg) (c : VCtx) : Member := c.intReg h vd va vb fAnd

/-- VAND, immediate form (R206, R211). -/
def memVandImm (h : VHdr) (vd va : VReg) (imm : BitVec 16) (c : VCtx) : Member := c.intImm h vd va imm fAnd

/-- VOR (R211). -/
def memVor (h : VHdr) (vd va vb : VReg) (c : VCtx) : Member := c.intReg h vd va vb fOr

/-- VOR, immediate form (R206, R211). -/
def memVorImm (h : VHdr) (vd va : VReg) (imm : BitVec 16) (c : VCtx) : Member := c.intImm h vd va imm fOr

/-- VXOR (R211). -/
def memVxor (h : VHdr) (vd va vb : VReg) (c : VCtx) : Member := c.intReg h vd va vb fXor

/-- VXOR, immediate form (R206, R211). -/
def memVxorImm (h : VHdr) (vd va : VReg) (imm : BitVec 16) (c : VCtx) : Member := c.intImm h vd va imm fXor

/-- VSLL (R211). -/
def memVsll (h : VHdr) (vd va vb : VReg) (c : VCtx) : Member := c.intReg h vd va vb fSll

/-- VSLL, immediate form (R206, R211). -/
def memVsllImm (h : VHdr) (vd va : VReg) (imm : BitVec 16) (c : VCtx) : Member := c.intImm h vd va imm fSll

/-- VSRL (R211). -/
def memVsrl (h : VHdr) (vd va vb : VReg) (c : VCtx) : Member := c.intReg h vd va vb fSrl

/-- VSRL, immediate form (R206, R211). -/
def memVsrlImm (h : VHdr) (vd va : VReg) (imm : BitVec 16) (c : VCtx) : Member := c.intImm h vd va imm fSrl

/-- VSRA (R211). -/
def memVsra (h : VHdr) (vd va vb : VReg) (c : VCtx) : Member := c.intReg h vd va vb fSra

/-- VSRA, immediate form (R206, R211). -/
def memVsraImm (h : VHdr) (vd va : VReg) (imm : BitVec 16) (c : VCtx) : Member := c.intImm h vd va imm fSra

/-- VMAD (R211). -/
def memVmad (h : VHdr) (vd va vb vc : VReg) (c : VCtx) : Member :=
  c.mapMember h vd fun p e =>
    let x := c.intVal h.et va p e
    let y := c.intVal h.et vb p e
    let z := c.intVal h.et vc p e
    (bitsOf (etWidth h.et) (x.1 * y.1 + z.1), x.2 || y.2 || z.2)

/-- VABS (R211). -/
def memVabs (h : VHdr) (vd va : VReg) (c : VCtx) : Member := c.intUn h vd va fun _ a => (a.natAbs : Nat)

/-- VNEG (R211). -/
def memVneg (h : VHdr) (vd va : VReg) (c : VCtx) : Member := c.intUn h vd va fun _ a => -a

/-! ## Floating point (R212, R213) -/

/-- A floating operation of two operands. -/
def VCtx.fltBin (c : VCtx) (h : VHdr) (vd va vb : VReg) (f : Fmt → Nat → Nat → Nat × Flags) : Member :=
  c.mapFlagged h vd (vlmax h.et c.lrows) fun p e =>
    let a := c.pat h.et va p e
    let b := c.pat h.et vb p e
    (f (etFmtD h.et) a.1 b.1, a.2 || b.2)

/-- A floating operation of one operand. -/
def VCtx.fltUn (c : VCtx) (h : VHdr) (vd va : VReg) (f : Fmt → Nat → Nat × Flags) : Member :=
  c.mapFlagged h vd (vlmax h.et c.lrows) fun p e =>
    let a := c.pat h.et va p e
    (f (etFmtD h.et) a.1, a.2)

/-- A fused operation. -/
def VCtx.fltFma (c : VCtx) (h : VHdr) (vd va vb vc : VReg) (neg : Bool) : Member :=
  c.mapFlagged h vd (vlmax h.et c.lrows) fun p e =>
    let a := c.pat h.et va p e
    let b := c.pat h.et vb p e
    let d := c.pat h.et vc p e
    ((etFmtD h.et).fmaEnc h.cls neg a.1 b.1 d.1, a.2 || b.2 || d.2)

/-- The value with its sign cleared or inverted; the canonical NaN for a NaN (R212). -/
def signOp (neg : Bool) (F : Fmt) (a : Nat) : Nat × Flags :=
  let v := F.decode a
  (if v.isNan then F.nan
   else if neg then (if a / F.signBit % 2 = 1 then a % F.signBit else F.signBit + a % F.signBit)
   else a % F.signBit, Flags.none)

/-- VFADD (R212). -/
def memVfadd (h : VHdr) (vd va vb : VReg) (c : VCtx) : Member := c.fltBin h vd va vb fun F a b => F.addEnc a b

/-- VFSUB (R212). -/
def memVfsub (h : VHdr) (vd va vb : VReg) (c : VCtx) : Member := c.fltBin h vd va vb fun F a b => F.subEnc a b

/-- VFMUL (R212). -/
def memVfmul (h : VHdr) (vd va vb : VReg) (c : VCtx) : Member := c.fltBin h vd va vb fun F a b => F.mulEnc h.cls a b

/-- VFMA (R212). -/
def memVfma (h : VHdr) (vd va vb vc : VReg) (c : VCtx) : Member := c.fltFma h vd va vb vc false

/-- VFNMA (R212). -/
def memVfnma (h : VHdr) (vd va vb vc : VReg) (c : VCtx) : Member := c.fltFma h vd va vb vc true

/-- VFMIN (R212). -/
def memVfmin (h : VHdr) (vd va vb : VReg) (c : VCtx) : Member :=
  c.fltBin h vd va vb fun F a b => (F.pickEnc false a b, Flags.none)

/-- VFMAX (R212). -/
def memVfmax (h : VHdr) (vd va vb : VReg) (c : VCtx) : Member :=
  c.fltBin h vd va vb fun F a b => (F.pickEnc true a b, Flags.none)

/-- VFABS (R212). -/
def memVfabs (h : VHdr) (vd va : VReg) (c : VCtx) : Member := c.fltUn h vd va (signOp false)

/-- VFNEG (R212). -/
def memVfneg (h : VHdr) (vd va : VReg) (c : VCtx) : Member := c.fltUn h vd va (signOp true)

/-- Round(a * 2^n), the special values passing (R213). -/
def scaleEnc (F : Fmt) (a : Nat) (n : Int) : Nat × Flags := roundVal F ((F.decode a).scale n)

/-- VFSCL (R213). -/
def memVfscl (h : VHdr) (vd va vb : VReg) (form : Bool) (c : VCtx) : Member :=
  c.mapFlagged h vd (vlmax h.et c.lrows) fun p e =>
    let a := c.pat h.et va p e
    let b := c.pat h.et vb p e
    let F := etFmtD h.et
    let r := if form then (if b.1 % 256 = 255 then (F.nan, Flags.none) else scaleEnc F a.1 ((b.1 % 256 : Nat) - 127))
             else scaleEnc F a.1 (signedOf (etWidth h.et) b.1)
    (r, a.2 || b.2)

/-- VFRCP (R106, R212). -/
def memVfrcp (h : VHdr) (vd va : VReg) (c : VCtx) : Member := c.fltUn h vd va fun F a => F.fn1 .rcp h.cls a

/-- VFRSQ (R106, R212). -/
def memVfrsq (h : VHdr) (vd va : VReg) (c : VCtx) : Member := c.fltUn h vd va fun F a => F.fn1 .rsq h.cls a

/-- VFEXP2 (R106, R212). -/
def memVfexp2 (h : VHdr) (vd va : VReg) (c : VCtx) : Member := c.fltUn h vd va fun F a => F.fn1 .exp2 h.cls a

/-- VFLOG2 (R106, R212). -/
def memVflog2 (h : VHdr) (vd va : VReg) (c : VCtx) : Member := c.fltUn h vd va fun F a => F.fn1 .log2 h.cls a

/-! ## Conversion (R214-R220) -/

/-- Bytes in half-byte units of an element: two for a byte, one for a packed code or an MX element. -/
def halfBytes (t : ETy) : Nat := if t = .mx4 then 1 else 2 * etSize t

/-- A member that is spanning where it widens in place (R214): then every result is formed before any is written. -/
def VCtx.convMember (c : VCtx) (h : VHdr) (vd va : VReg) (n srcHalf : Nat) (f : Proc → Nat → (Nat × Flags) × Bool) :
    Member :=
  let widens := vd == va && decide (srcHalf < halfBytes h.et)
  if widens then
    { groups := 0, spanning := true
      run := fun _ p => .ok (flaggedWrites (c.base vd) (etSize h.et) ((c.actives h p n).map (fun e => (e, f p e))), []) }
  else { c.mapFlagged h vd n f with groups := (n + 63) / 64 }

/-- VCVT (R214). -/
def memVcvt (h : VHdr) (vd va : VReg) (src : ETy) (sat : Bool) (rm : RMode) (c : VCtx) : Member :=
  c.convMember h vd va (min (vlmax h.et c.lrows) (vlmax src c.lrows)) (halfBytes src) fun p e =>
    let a := c.pat src va p e
    (convertElem src h.et rm sat (srBits c.seed vd.toNat e) a.1, a.2)

/-- Entry of the expansion table (R216). -/
def VCtx.xtab (c : VCtx) (code : Nat) : Nat :=
  if code < 8 then c.xtab0.toNat / 2 ^ (8 * code) % 256 else c.xtab1.toNat / 2 ^ (8 * (code - 8)) % 256

/-- VCVTX (R217): packed codes through the latched table. -/
def memVcvtx (h : VHdr) (vd va : VReg) (c : VCtx) : Member :=
  c.convMember h vd va (vlmax h.et c.lrows) 1 fun p e =>
    let b := c.pat .u8 va p (e / 2)
    let x := c.xtab (if e % 2 = 0 then b.1 % 16 else b.1 / 16)
    let F := etFmtD h.et
    ((if (F.decode x).isNan then F.nan else x, Flags.none), b.2)

/-- VMXUP (R219). -/
def memVmxup (h : VHdr) (vd va : VReg) (rm : RMode) (c : VCtx) : Member :=
  c.convMember h vd va (min (896 * c.lrows) (vlmax h.et c.lrows)) 1 fun p e =>
    let slot := p.slotAt (c.base va) (e / 32)
    let F := etFmtD h.et
    let r := if slotScale slot = 255 then (F.nan, Flags.none)
      else convertFlt F ((fE2m1.decode (slotCode slot (e % 32))).scale ((slotScale slot : Nat) - 127)) rm false
        (srBits c.seed vd.toNat e)
    (r, p.slotPsn (c.base va) (e / 32))

/-- Largest magnitude among finite values, as a value; none if there are none (R220). -/
def maxMag (l : List FVal) : FVal :=
  l.foldl (fun m v => match v with
    | .fin _ a e => if m.lt (.fin false a e) then .fin false a e else m
    | _ => m) (.fin false 0 0)

/-- The scale VMXPK chooses (R220). -/
def mxScale (m : FVal) : Nat :=
  match m with
  | .fin _ a e => if a = 0 then 127 else ((Nat.log2 a : Int) + e - 2 + 127).toNat
  | _ => 127

/-- One block of VMXPK: slot value and flags (R220) (DEDUCED, log 19). -/
def mxPack (F : Fmt) (rm : RMode) (key : Nat → Nat) (xs : List (Nat × Bool)) : Nat × Flags :=
  let act := (xs.filter (·.2)).map (fun x => F.decode x.1)
  if act.any FVal.isNan then (255, Flags.none)
  else
    let scale := mxScale (maxMag act)
    let codes := xs.zipIdx.map (fun x =>
      if x.1.2 then convertFlt fE2m1 ((F.decode x.1.1).scale (127 - (scale : Int))) rm false (key x.2)
      else (0, Flags.none))
    let bits := codes.zipIdx.foldl (fun s x => s + x.1.1 * 2 ^ (16 + 4 * x.2)) 0
    (scale + bits, codes.foldl (fun f x => f.or x.2) Flags.none)

/-- VMXPK (R220): a block is written when one of its elements is active. In place, bytes 504 to 511 of the first row
become zero only with the group that reads them, so that every result is formed from the source as it stood (R214)
(DEDUCED, log 19). -/
def memVmxpk (h : VHdr) (vd va : VReg) (src : ETy) (rm : RMode) (c : VCtx) : Member :=
  let n := min (vlmax src c.lrows) (896 * c.lrows)
  let tail := 8 / etSize src - 1
  { groups := (n + 63) / 64, spanning := false
    run := fun g p =>
      let blocks := [2 * g, 2 * g + 1].filter (fun b => decide (32 * b < n))
      let res := blocks.filterMap (fun b =>
        let xs := (List.range 32).map (fun j => (c.pat src va p (32 * b + j), c.active h p n (32 * b + j)))
        if xs.any (·.2) then
          some (b, mxPack (etFmtD src) rm (fun j => srBits c.seed vd.toNat (32 * b + j)) (xs.map (fun x => (x.1.1, x.2))),
            (xs.filter (·.2)).any (fun x => x.1.2))
        else none)
      let early := vd == va && decide (g < tail)
      let slots := res.flatMap (fun x =>
        if early then [.slot (c.base vd) x.1 x.2.1.1 x.2.2] else unitWrites (c.base vd) .mx4 x.1 (x.2.1.1, x.2.2))
      let late := if vd = va ∧ g = tail ∧ (List.range (64 * g)).any (fun e => c.active h p n e) then [.tail (c.base vd)] else []
      .ok (slots ++ late ++ [.flags (res.foldl (fun f x => f.or x.2.1.2) Flags.none)], []) }

/-! ## Compares and masks (R203, R221-R225) -/

/-- VPSN (R203). -/
def memVpsn (h : VHdr) (kd : KReg) (va : VReg) (c : VCtx) : Member :=
  c.maskMember h kd fun p es =>
    .ok (es.map (fun e => (e, if h.et = .mx4 then p.slotPsn (c.base va) (e / 32)
      else p.elemPsn (c.base va) (etSize h.et) e)), Flags.none)

/-- VPCLR (R203). For `.mx4` an active element clears the poison of its whole slot (R185). -/
def memVpclr (h : VHdr) (vd : VReg) (c : VCtx) : Member :=
  { groups := groupsOf h.et c.lrows, spanning := false
    run := fun g p =>
      let es := c.groupOf h p (vlmax h.et c.lrows) g
      .ok (es.map (fun e => markUnit (c.base vd) h.et (if h.et = .mx4 then e / 32 else e) false), []) }

/-- A compare: active elements below a poisoned one stop the convoy (R208, R237). -/
def VCtx.cmpMember (c : VCtx) (h : VHdr) (kd : KReg) (va vb : VReg) (f : Nat → Nat → Bool × Bool) : Member :=
  c.maskMember h kd fun p es =>
    if es.any (fun e => p.elemPsn (c.base va) (etSize h.et) e || p.elemPsn (c.base vb) (etSize h.et) e) then
      .error poisonStop
    else
      let rs := es.map (fun e => (e, f (p.elem (c.base va) (etSize h.et) e) (p.elem (c.base vb) (etSize h.et) e)))
      .ok (rs.map (fun x => (x.1, x.2.1)), Flags.nvIf (rs.any (fun x => x.2.2)))

/-- The integer conditions (R221). -/
def condInt (k : Cond) (a b : Int) : Bool :=
  match k with
  | .eq => a == b | .ne => a != b | .lt => decide (a < b) | .le => decide (a ≤ b)
  | .gt => decide (b < a) | .ge => decide (b ≤ a) | .un => false

/-- The floating conditions, with NV (R221). -/
def condFlt (k : Cond) (a b : FVal) : Bool × Bool :=
  let nan := a.isNan || b.isNan
  match k with
  | .eq => (!nan && !a.lt b && !b.lt a, false)
  | .ne => (nan || a.lt b || b.lt a, false)
  | .lt => (!nan && a.lt b, nan)
  | .le => (!nan && !b.lt a, nan)
  | .gt => (!nan && b.lt a, nan)
  | .ge => (!nan && !a.lt b, nan)
  | .un => (nan, false)

/-- VCMP (R221). -/
def memVcmp (h : VHdr) (kd : KReg) (va vb : VReg) (cond : Cond) (c : VCtx) : Member :=
  c.cmpMember h kd va vb fun a b => (condInt cond (etInt h.et a) (etInt h.et b), false)

/-- VFCMP (R221). -/
def memVfcmp (h : VHdr) (kd : KReg) (va vb : VReg) (cond : Cond) (c : VCtx) : Member :=
  c.cmpMember h kd va vb fun a b => condFlt cond ((etFmtD h.et).decode a) ((etFmtD h.et).decode b)

/-- VWHILE (R222). -/
def memVwhile (h : VHdr) (kd : KReg) (gi gn : GReg) (uns : Bool) (c : VCtx) : Member :=
  c.maskMember h kd fun _ es =>
    let i := c.gen gi
    let n := c.gen gn
    .ok (es.map (fun e => (e,
      if uns then decide (i.toNat + e < n.toNat) else decide (i.toInt + (e : Int) < n.toInt))), Flags.none)

/-- A mask logic instruction (R223). -/
def VCtx.logic (c : VCtx) (h : VHdr) (kd ka kb : KReg) (f : Bool → Bool → Bool) : Member :=
  c.maskMember h kd fun p es => .ok (es.map (fun e => (e, f (p.maskBit ka e) (p.maskBit kb e))), Flags.none)

/-- KAND (R223). -/
def memKand (h : VHdr) (kd ka kb : KReg) (c : VCtx) : Member := c.logic h kd ka kb fun a b => a && b

/-- KOR (R223). -/
def memKor (h : VHdr) (kd ka kb : KReg) (c : VCtx) : Member := c.logic h kd ka kb fun a b => a || b

/-- KXOR (R223). -/
def memKxor (h : VHdr) (kd ka kb : KReg) (c : VCtx) : Member := c.logic h kd ka kb fun a b => a != b

/-- KANDN (R223). -/
def memKandn (h : VHdr) (kd ka kb : KReg) (c : VCtx) : Member := c.logic h kd ka kb fun a b => a && !b

/-- KNOT (R223). -/
def memKnot (h : VHdr) (kd ka : KReg) (c : VCtx) : Member := c.logic h kd ka ka fun a _ => !a

/-- KMOV (R223). -/
def memKmov (h : VHdr) (kd ka : KReg) (c : VCtx) : Member := c.logic h kd ka ka fun a _ => a

/-- Active elements whose bit of a mask is set (R224). -/
def VCtx.setBits (c : VCtx) (h : VHdr) (p : Proc) (ka : KReg) : List Nat :=
  (c.actives h p (vlmax h.et c.lrows)).filter (fun e => p.maskBit ka e)

/-- KPOP (R224). -/
def memKpop (h : VHdr) (gd : GReg) (ka : KReg) (c : VCtx) : Member :=
  { groups := 0, spanning := true
    run := fun _ p => .ok ([], [(gd.toNat, BitVec.ofNat 64 (c.setBits h p ka).length)]) }

/-- KFIRST (R224). -/
def memKfirst (h : VHdr) (gd : GReg) (ka : KReg) (c : VCtx) : Member :=
  { groups := 0, spanning := true
    run := fun _ p => .ok ([], [(gd.toNat, match c.setBits h p ka with
      | [] => BitVec.allOnes 64
      | e :: _ => BitVec.ofNat 64 e)]) }

/-- VMXV (R225): a poisoned slot that holds an active element stops the convoy. -/
def memVmxv (h : VHdr) (kd : KReg) (va : VReg) (c : VCtx) : Member :=
  c.maskMember h kd fun p es =>
    if es.any (fun e => p.slotPsn (c.base va) (e / 32)) then .error poisonStop
    else .ok (es.map (fun e => (e, slotScale (p.slotAt (c.base va) (e / 32)) != 255)), Flags.none)

/-! ## Permutations (R226-R231) -/

/-- VMOV (R227), group by group: the units of a group, a slot counting for the group of its first element. -/
def memVmov (h : VHdr) (vd va : VReg) (c : VCtx) : Member :=
  { groups := groupsOf h.et c.lrows, spanning := false
    run := fun g p =>
      let us := if h.et = .mx4 then [2 * g, 2 * g + 1].filter (fun u => c.active h p (896 * c.lrows) (32 * u))
        else c.groupOf h p (vlmax h.et c.lrows) g
      .ok (us.flatMap (fun u => unitWrites (c.base vd) h.et u (p.unit (c.base va) h.et u)), []) }

/-- VBCAST (R227). -/
def memVbcast (h : VHdr) (vd : VReg) (ga : GReg) (c : VCtx) : Member :=
  c.mapMember h vd fun _ _ => ((c.gen ga).toNat % 2 ^ etWidth h.et, false)

/-- VBCASTB (R227). -/
def memVbcastb (h : VHdr) (vd va : VReg) (src : ETy) (log2B : BitVec 5) (c : VCtx) : Member :=
  c.spanUnits h vd fun p => (c.actives h p (vlmax h.et c.lrows)).map (fun e =>
    let i := e / 2 ^ log2B.toNat
    if i < vlmax src c.lrows then
      let a := c.pat src va p i
      (e, if src = h.et then a.1 else bitsOf (etWidth h.et) (etInt src a.1), a.2)
    else (e, 0, false))

/-- Index unit of VGATHR and VPERM: the width of et, or 16 bits for `.mx4` (R228). -/
def VCtx.idxUnit (c : VCtx) (t : ETy) (vb : VReg) (p : Proc) (u : Nat) : Nat × Bool :=
  let s := if t = .mx4 then 2 else etSize t
  (p.elem (c.base vb) s u, p.elemPsn (c.base vb) s u)

/-- VGATHR (R228). -/
def memVgathr (h : VHdr) (vd va vb : VReg) (c : VCtx) : Member :=
  c.spanUnits h vd fun p => (c.units h p).map (fun u =>
    let i := c.idxUnit h.et vb p u
    if i.1 < unitCount h.et c.lrows then
      let x := p.unit (c.base va) h.et i.1
      (u, x.1, x.2 || i.2)
    else (u, (zeroUnit h.et).1, i.2))

/-- VPERM (R228): within a canonical group, or within a row for `.mx4`, where it is spanning. -/
def memVperm (h : VHdr) (vd va vb : VReg) (c : VCtx) : Member :=
  if h.et = .mx4 then
    c.spanUnits h vd fun p => (c.units h p).map (fun u =>
      let i := c.idxUnit h.et vb p u
      let x := p.unit (c.base va) h.et (28 * (u / 28) + i.1 % 28)
      (u, x.1, x.2 || i.2))
  else
    c.mapMember h vd fun p e =>
      let i := c.idxUnit h.et vb p e
      let x := p.unit (c.base va) h.et (64 * (e / 64) + i.1 % 64)
      (x.1, x.2 || i.2)

/-- VSLDU (R229). -/
def memVsldu (h : VHdr) (vd va vb : VReg) (n : BitVec 16) (c : VCtx) : Member :=
  c.spanUnits h vd fun p => (c.units h p).map (fun u =>
    let U := unitCount h.et c.lrows
    (u, if n.toNat ≤ u then p.unit (c.base va) h.et (u - n.toNat)
        else if n.toNat ≤ U + u then p.unit (c.base vb) h.et (U + u - n.toNat) else zeroUnit h.et))

/-- VSLDD (R229). -/
def memVsldd (h : VHdr) (vd va vb : VReg) (n : BitVec 16) (c : VCtx) : Member :=
  c.spanUnits h vd fun p => (c.units h p).map (fun u =>
    let U := unitCount h.et c.lrows
    (u, if u + n.toNat < U then p.unit (c.base va) h.et (u + n.toNat)
        else if u + n.toNat - U < U then p.unit (c.base vb) h.et (u + n.toNat - U) else zeroUnit h.et))

/-- VCMPR (R230). -/
def memVcmpr (h : VHdr) (vd va : VReg) (c : VCtx) : Member :=
  c.spanUnits h vd fun p => (c.units h p).zipIdx.map (fun x => (x.2, p.unit (c.base va) h.et x.1))

/-- VEXPD (R230). -/
def memVexpd (h : VHdr) (vd va : VReg) (c : VCtx) : Member :=
  c.spanUnits h vd fun p => (c.units h p).zipIdx.map (fun x => (x.1, p.unit (c.base va) h.et x.2))

/-- VIOTA (R230): form 1 counts the active elements below, and is spanning. -/
def memViota (h : VHdr) (vd : VReg) (form : Bool) (c : VCtx) : Member :=
  if form then
    c.spanUnits h vd fun p => (c.actives h p (vlmax h.et c.lrows)).zipIdx.map (fun x =>
      (x.1, x.2 % 2 ^ etWidth h.et, false))
  else c.mapMember h vd fun _ e => (e % 2 ^ etWidth h.et, false)

/-- VEXT (R231, R238). -/
def memVext (et : ETy) (gd : GReg) (va : VReg) (gi : GReg) (c : VCtx) : Member :=
  { groups := 0, spanning := true
    run := fun _ p =>
      let i := (c.gen gi).toNat
      if vlmax et c.lrows ≤ i then .ok ([], [(gd.toNat, 0)])
      else
        let x := c.pat et va p i
        if x.2 then .error { cause := 0x40, addr := 0, info := BitVec.ofNat 64 i }
        else .ok ([], [(gd.toNat, BitVec.ofInt 64 (etInt et x.1))]) }

/-- VINS (R231): one element, in its canonical group. -/
def memVins (et : ETy) (vd : VReg) (ga gi : GReg) (c : VCtx) : Member :=
  { groups := groupsOf et c.lrows, spanning := false
    run := fun g _ =>
      let i := (c.gen gi).toNat
      .ok (if i < vlmax et c.lrows ∧ i / 64 = g then
          [.elem (c.base vd) (etSize et) i ((c.gen ga).toNat % 2 ^ etWidth et) false] else [], []) }

/-! ## Reductions and scans (R108-R110, R232-R234) -/

/-- A partial result: value, flags and poison, or EMPTY. -/
abbrev Node := Option (Nat × Flags × Bool)

/-- Join (R108, R110). -/
def joinNodes (op : Nat → Nat → Nat × Flags) (l r : Node) : Node :=
  match l, r with
  | none, r => r
  | l, none => l
  | some (a, fa, pa), some (b, fb, pb) =>
    let x := op a b
    some (x.1, (fa.or fb).or x.2, pa || pb)

/-- TreeNode (R108): level `lvl`, node `k`, over the elements `f` gives. -/
def treeNode (op : Nat → Nat → Nat × Flags) (f : Nat → Node) (base : Nat) : Nat → Nat → Node
  | 0, k => f (base + k)
  | lvl + 1, k => joinNodes op (treeNode op f base lvl (2 * k)) (treeNode op f base lvl (2 * k + 1))

/-- Reduce over groups below `n` (R108). -/
def reduceGroups (op : Nat → Nat → Nat × Flags) (f : Nat → Node) : Nat → Node
  | 0 => none
  | n + 1 => joinNodes op (reduceGroups op f n) (treeNode op f (64 * n) 6 0)

/-- The nodes of [64g, e] that the binary digits of j + 1 name, levels below `lvl` (R109). -/
def scanIn (op : Nat → Nat → Nat × Flags) (f : Nat → Node) (base n : Nat) : Nat → Nat → Node → Node
  | 0, _, t => t
  | lvl + 1, done, t =>
    if n.testBit lvl then
      scanIn op f base n lvl (done + 2 ^ lvl) (joinNodes op t (treeNode op f base lvl (done / 2 ^ lvl)))
    else scanIn op f base n lvl done t

/-- ScanAt (R109). -/
def scanAt (op : Nat → Nat → Nat × Flags) (f : Nat → Node) (e : Nat) : Node :=
  joinNodes op (reduceGroups op f (e / 64)) (scanIn op f (64 * (e / 64)) (e % 64 + 1) 7 0 none)

/-- The operator of an integer reduction (R232). -/
def intOp (t : ETy) (k : ScanOp) (a b : Nat) : Nat × Flags :=
  (patOf t (match k with
    | .sum => etInt t a + etInt t b
    | .max => fMax t (etInt t a) (etInt t b)
    | .min => fMin t (etInt t a) (etInt t b)), Flags.none)

/-- The operator of a floating reduction (R232). -/
def fltOp (t : ETy) (k : ScanOp) (a b : Nat) : Nat × Flags :=
  match k with
  | .sum => (etFmtD t).addEnc a b
  | .max => ((etFmtD t).pickEnc true a b, Flags.none)
  | .min => ((etFmtD t).pickEnc false a b, Flags.none)

/-- The result of an empty integer reduction (R232). -/
def intEmpty (t : ETy) (k : ScanOp) : Nat :=
  match k with
  | .sum => 0
  | .max => patOf t (etMin t)
  | .min => patOf t (etMax t)

/-- The result of an empty floating reduction (R232). -/
def fltEmpty (t : ETy) (k : ScanOp) : Nat :=
  match k with
  | .sum => 0
  | .max => (etFmtD t).signed true (etFmtD t).infEnc
  | .min => (etFmtD t).infEnc

/-- Active source elements as leaves; a NaN is read as the canonical one (R85). -/
def VCtx.leafOf (c : VCtx) (h : VHdr) (va : VReg) (flt : Bool) (p : Proc) (e : Nat) : Node :=
  if c.active h p (vlmax h.et c.lrows) e then
    let x := c.pat h.et va p e
    let F := etFmtD h.et
    some (if flt && (F.decode x.1).isNan then F.nan else x.1, Flags.none, x.2)
  else none

/-- A reduction (R233). -/
def VCtx.reduceMember (c : VCtx) (h : VHdr) (vd va : VReg) (flt : Bool) (k : ScanOp) : Member :=
  { groups := 0, spanning := true
    run := fun _ p =>
      let op := if flt then fltOp h.et k else intOp h.et k
      let r := match reduceGroups op (c.leafOf h va flt p) (groupsOf h.et c.lrows) with
        | some x => x
        | none => (if flt then fltEmpty h.et k else intEmpty h.et k, Flags.none, false)
      .ok ((if c.lrows = 0 then [] else [.elem (c.base vd) (etSize h.et) 0 r.1 r.2.2]) ++ [.flags r.2.1], []) }

/-- A scan (R234). The flags are those of the roundings of every written value (R110). -/
def VCtx.scanMember (c : VCtx) (h : VHdr) (vd va : VReg) (flt : Bool) (k : ScanOp) : Member :=
  { groups := 0, spanning := true
    run := fun _ p =>
      let op := if flt then fltOp h.et k else intOp h.et k
      let es := c.actives h p (vlmax h.et c.lrows)
      let rs := es.filterMap (fun e => (scanAt op (c.leafOf h va flt p) e).map (fun x => (e, (x.1, x.2.1), x.2.2)))
      .ok (flaggedWrites (c.base vd) (etSize h.et) rs, []) }

/-- VRSUM (R232, R233). -/
def memVrsum (h : VHdr) (vd va : VReg) (c : VCtx) : Member := c.reduceMember h vd va false .sum

/-- VRMAX (R232, R233). -/
def memVrmax (h : VHdr) (vd va : VReg) (c : VCtx) : Member := c.reduceMember h vd va false .max

/-- VRMIN (R232, R233). -/
def memVrmin (h : VHdr) (vd va : VReg) (c : VCtx) : Member := c.reduceMember h vd va false .min

/-- VFRSUM (R232, R233). -/
def memVfrsum (h : VHdr) (vd va : VReg) (c : VCtx) : Member := c.reduceMember h vd va true .sum

/-- VFRMAX (R232, R233). -/
def memVfrmax (h : VHdr) (vd va : VReg) (c : VCtx) : Member := c.reduceMember h vd va true .max

/-- VFRMIN (R232, R233). -/
def memVfrmin (h : VHdr) (vd va : VReg) (c : VCtx) : Member := c.reduceMember h vd va true .min

/-- VSCAN (R232, R234). -/
def memVscan (h : VHdr) (vd va : VReg) (op : ScanOp) (c : VCtx) : Member := c.scanMember h vd va false op

/-- VFSCAN (R232, R234). -/
def memVfscan (h : VHdr) (vd va : VReg) (op : ScanOp) (c : VCtx) : Member := c.scanMember h vd va true op

end Sys2Proof.Machine
end

