-- ==== Sys2Proof/Machine/VMem.lean ====
section
/-!
DEFINITION. The members that act on memory and on channels, one canonical group at a time: vector loads and stores,
first-fault loads, vector atomics, linked accesses, scatter-add, VSEND and VRECV (R167-R169, R260-R268, R320-R327).
-/

namespace Sys2Proof.Machine

/-! ## Memory members as data -/

/-- What a memory member does with each of its units. -/
inductive MKind where
  | load | firstFault | store | linked | sadd
  | amo (op : AOp) (inOrder ret : Bool)
  | cond (kd : KReg)
  deriving DecidableEq, Repr

/-- A memory member: `vd` is the register written or stored, `x` the operand of an atomic (R260, R320). -/
structure MemOp where
  kind : MKind
  h : VHdr
  ord : Ord
  vd : VReg
  idx : Option (VReg × IdxW)
  vb : GReg
  stride : Option GReg
  disp : BitVec 16
  x : VReg
  deriving DecidableEq, Repr

/-- The memory member an instruction is, if it is one. -/
def memOp (i : Instr) : Option MemOp :=
  match i with
  | .vld h ord vd vb d => some ⟨.load, h, ord, vd, none, vb, none, d, 0⟩
  | .vst h ord vd vb d => some ⟨.store, h, ord, vd, none, vb, none, d, 0⟩
  | .vlds h ord vd vb vc d => some ⟨.load, h, ord, vd, none, vb, some vc, d, 0⟩
  | .vsts h ord vd vb vc d => some ⟨.store, h, ord, vd, none, vb, some vc, d, 0⟩
  | .vldx h ord iw vd va vb d => some ⟨.load, h, ord, vd, some (va, iw), vb, none, d, 0⟩
  | .vstx h ord iw vd va vb d => some ⟨.store, h, ord, vd, some (va, iw), vb, none, d, 0⟩
  | .vldff h ord vd vb d => some ⟨.firstFault, h, ord, vd, none, vb, none, d, 0⟩
  | .vldffStrided h ord vd vb vc d => some ⟨.firstFault, h, ord, vd, none, vb, some vc, d, 0⟩
  | .vldffIndexed h ord iw vd va vb d => some ⟨.firstFault, h, ord, vd, some (va, iw), vb, none, d, 0⟩
  | .vamo h ord op iw ret vd va vb vc => some ⟨.amo op false ret, h, ord, vd, some (va, iw), vb, none, 0, vc⟩
  | .vamoo h ord op iw ret vd va vb vc => some ⟨.amo op true ret, h, ord, vd, some (va, iw), vb, none, 0, vc⟩
  | .vldgl h ord iw vd va vb => some ⟨.linked, h, ord, vd, some (va, iw), vb, none, 0, 0⟩
  | .vstsc h ord iw kd vd va vb => some ⟨.cond kd, h, ord, vd, some (va, iw), vb, none, 0, 0⟩
  | .vsadd h ord iw vd va vb => some ⟨.sadd, h, ord, vd, some (va, iw), vb, none, 0, 0⟩
  | _ => none

/-- Bytes a unit takes in memory (R261, R322). -/
def MemOp.z (o : MemOp) : Nat := if o.h.et = .mx4 then 17 else etSize o.h.et

/-- The type of an index (R261). -/
def idxTy : IdxW → ETy
  | .w16 => .u16 | .w32 => .u32 | .w64 => .u64

/-- The unit range E (R261, R322). -/
def MemOp.range (o : MemOp) (l : Nat) : Nat :=
  match o.idx with
  | none => unitCount o.h.et l
  | some (_, w) => min (unitCount o.h.et l) (vlmax (idxTy w) l)

/-- A unit is active (R226). -/
def MemOp.unitActive (o : MemOp) (c : VCtx) (p : Proc) (u : Nat) : Bool :=
  if o.h.et = .mx4 then c.active o.h p (896 * c.lrows) (32 * u) else c.active o.h p (vlmax o.h.et c.lrows) u

/-- Units of a canonical group. -/
def groupUnits (t : ETy) (g : Nat) : List Nat :=
  if t = .mx4 then [2 * g, 2 * g + 1] else (List.range 64).map (64 * g + ·)

/-- Active units of a group below E. -/
def MemOp.unitsOf (o : MemOp) (c : VCtx) (p : Proc) (g : Nat) : List Nat :=
  (groupUnits o.h.et g).filter (fun u => decide (u < o.range c.lrows) && o.unitActive c p u)

/-- The element index of a unit (R266). -/
def MemOp.elemOf (o : MemOp) (u : Nat) : Nat := if o.h.et = .mx4 then 32 * u else u

/-- The index element of a unit is poisoned (R261, R322). -/
def MemOp.idxPsn (o : MemOp) (c : VCtx) (p : Proc) (u : Nat) : Bool :=
  match o.idx with
  | none => false
  | some (va, w) => p.elemPsn (c.base va) (etSize (idxTy w)) u

/-- Addr(u) (R261, R322) (DEDUCED, log 18). -/
def MemOp.addr (o : MemOp) (c : VCtx) (p : Proc) (u : Nat) : Word :=
  let b := c.gen o.vb + signExt o.disp
  match o.idx, o.stride with
  | some (va, w), _ => b + BitVec.ofNat 64 (o.z * p.elem (c.base va) (etSize (idxTy w)) u)
  | none, some r => b + c.gen r * BitVec.ofNat 64 u
  | none, none => b + BitVec.ofNat 64 (o.z * u)

/-- The access kind of a member (R312). -/
def MemOp.access (o : MemOp) : Nat :=
  match o.kind with
  | .load => kRead
  | .firstFault => kRead
  | .linked => kRead
  | .store => kWrite
  | .cond _ => kWrite
  | .sadd => kRmw
  | .amo _ _ _ => kRmw

/-- A member of vop 0xB0 to 0xB4, which reaches device memory only (R322). -/
def MemOp.atomic (o : MemOp) : Bool :=
  match o.kind with
  | .load => false
  | .firstFault => false
  | .store => false
  | _ => true

/-- A poisoned index stops the member (R208, R261, R322). -/
def MemOp.consumes (o : MemOp) : Bool :=
  match o.kind with
  | .store => true
  | .cond _ => true
  | _ => false

/-! ## Checks (R261, R266, R322) -/

/-- A part of a unit that lies in one block: offset in the unit, bytes, and the device place (none: scratchpad). -/
structure Piece where
  off : Nat
  n : Nat
  place : Option Place
  deriving DecidableEq, Repr

/-- A translation of a device address for a process, canonical form first (R306, R312, R316). -/
def State.vectorPlace (s : State) (p : Proc) (a : Word) (kind : Nat) : Except (Cause × Word) Place :=
  if !canonDev a then .error (0x24, transInfo 0 kind)
  else match s.tileTranslate p.tile p.tenant a.toNat kind with
    | .error (c, level) => .error (c, transInfo level kind)
    | .ok place => .ok place

/-- Bytes of the blocks an access is divided at (R365). -/
def blockOf : Place → Nat
  | .phys _ => 64
  | .remote _ _ _ => 32

/-- The space checks of `z` bytes at an address, and the pieces they lie in (R365). -/
def State.piecesAt (s : State) (p : Proc) (a : Word) (z kind : Nat) (devOnly : Bool) :
    Except (Cause × Word) (List Piece) :=
  let cut := fun (block : Nat) => min z (block - a.toNat % block)
  if !inDevice a then
    if devOnly then .error (0x70, 0)
    else match p.desc.spadCheck a z with
      | some c => .error (c, 0)
      | none =>
        let n := cut 64
        .ok ({ off := 0, n, place := none } :: (if n = z then [] else [{ off := n, n := z - n, place := none }]))
  else match s.vectorPlace p a kind with
    | .error e => .error e
    | .ok place =>
      let n := cut (blockOf place)
      if n = z then .ok [{ off := 0, n := z, place := some place }]
      else match s.vectorPlace p (a + BitVec.ofNat 64 n) kind with
        | .error e => .error e
        | .ok place' => .ok [{ off := 0, n, place := some place }, { off := n, n := z - n, place := some place' }]

/-- A unit of a group with what its checks give. -/
structure UnitPlan where
  u : Nat
  addr : Word
  psn : Bool
  pieces : Except (Cause × Word) (List Piece)

/-- The checks of one unit, in their order. -/
def State.planUnit (s : State) (c : VCtx) (p : Proc) (o : MemOp) (u : Nat) : UnitPlan :=
  let a := o.addr c p u
  { u, addr := a, psn := o.idxPsn c p u
    pieces := if o.h.et != .mx4 && a.toNat % o.z != 0 then .error (0x08, 0)
              else s.piecesAt p a o.z o.access o.atomic }

/-- The plan of a group. -/
def State.planGroup (s : State) (c : VCtx) (p : Proc) (o : MemOp) (g : Nat) : List UnitPlan :=
  (o.unitsOf c p g).map (s.planUnit c p o)

/-- How a failing unit stops the convoy (R266). -/
def MemOp.stopAt (o : MemOp) (u : Nat) (cause : Cause) (addr info : Word) : VStop :=
  { cause, addr, info := info ||| BitVec.ofNat 64 (o.elemOf u) }

/-- The lowest active unit whose checks fail (R266, R261). -/
def MemOp.firstFail (o : MemOp) : List UnitPlan → Option (Nat × VStop)
  | [] => none
  | x :: xs =>
    if x.psn then
      (if o.consumes then some (x.u, { cause := 0x40, addr := 0, info := BitVec.ofNat 64 x.u }) else o.firstFail xs)
    else match x.pieces with
      | .error (c, info) => some (x.u, o.stopAt x.u c x.addr info)
      | .ok _ => o.firstFail xs

/-! ## A group on its way -/

/-- A request a group still has to send. -/
structure Emit where
  member : Nat
  group : Nat
  unit : Nat
  piece : Nat
  place : Place
  kind : ReqKind
  /-- Its reply is an acknowledgement only. -/
  store : Bool
  /-- It reads and no more. -/
  pure : Bool
  deriving DecidableEq, Repr

/-- Groups of members being carried out on a copy of the state: registers whose content is not known yet (vector 0 to
31, mask 32 and up) and whether something is still awaited; registers that a member cannot write before it stops at a
later group, and the groups left out for that; the port whose tokens or credits are missing and the member that needs
them; requests to send now, device stores to send once every member has passed, what the groups write, which have
passed, and what they leave with the convoy. -/
structure Stage where
  s : State
  taint : List Nat := []
  wait : Bool := false
  dead : List (Nat × Nat) := []
  skip : List (Nat × Nat) := []
  done : List (Nat × Nat) := []
  port : Option (Nat × Nat) := none
  emits : List Emit := []
  stores : List Emit := []
  stop : Option VStop := none
  ws : List Held := []
  gw : List (Nat × Word) := []
  ffe : List (Nat × Nat) := []
  begun : List Nat := []
  parts : List PartWord := []
  lines : AMap Nat := []
  /-- Addresses whose pages the tile has yet to have translated (R314). -/
  pages : List Nat := []

/-- The convoy, the group and the member that is carried out. -/
structure Here where
  pid : Nat
  c : VCtx
  strike : Option Strike := none
  reqs : List UReq
  /-- Stores of earlier groups without their acknowledgement, here and at other packages. -/
  acks : List Nat := []
  farAcks : List Nat := []
  /-- Results that the registers do not show yet. -/
  held : List Held := []
  /-- The group the convoy stands at. -/
  base : Nat := 0
  g : Nat
  k : Nat

/-- Addresses that a member is about to translate. -/
def Stage.note (st : Stage) (p : Proc) (l : List Word) : Stage := { st with pages := st.pages ++ st.s.unknown p l }

/-- The first and the last byte of each unit of a plan that is to be translated. -/
def MemOp.touched (o : MemOp) (plan : List UnitPlan) : List Word :=
  plan.flatMap (fun pl =>
    if pl.psn || (o.h.et != .mx4 && pl.addr.toNat % o.z != 0) then [] else [pl.addr, pl.addr + BitVec.ofNat 64 (o.z - 1)])

/-- Key of a vector register. -/
def vKey (v : VReg) : Nat := v.toNat
/-- Key of a mask. -/
def kKey (k : KReg) : Nat := 32 + k.toNat

/-- The request sent for a unit's piece. -/
def Here.sent (x : Here) (u piece : Nat) : Option UReq :=
  x.reqs.find? (fun r => r.member == x.k && r.group == x.g && r.unit == u && r.piece == piece)

/-- What members up to `k` write, in member order (R193). -/
def heldWrites (l : List Held) (k : Nat) : List VWrite :=
  (List.range (k + 1)).flatMap (fun j => (l.filter (fun e => e.member == j)).flatMap (·.writes))

/-- The process of the convoy as a member finds it: with the results of the members before it (R193). -/
def Stage.proc (st : Stage) (x : Here) : Option Proc :=
  (st.s.proc? x.pid).map (fun p => p.puts (heldWrites (x.held ++ st.ws) x.k))

/-- What a member writes. -/
def Stage.put (st : Stage) (x : Here) (l : List VWrite) : Stage :=
  { st with ws := st.ws ++ [{ member := x.k, group := x.g, writes := l }] }

/-- Something the member leaves is not known yet. -/
def Stage.blocked (st : Stage) (keys : List Nat) : Stage :=
  { st with wait := true, taint := st.taint ++ keys.filter (fun k => !st.taint.contains k) }

/-- Two places share a byte. -/
def Place.meets (a : Place) (n : Nat) (b : Place) (m : Nat) : Bool :=
  match a, b with
  | .phys x, .phys y => decide (x < y + m) && decide (y < x + n)
  | .remote p k x, .remote q l y => p == q && k == l && decide (x < y + m) && decide (y < x + n)
  | _, _ => false

/-- Bytes a request touches. -/
def reqSize : ReqKind → Nat
  | .read n => n
  | .write b _ => b.length
  | .fill b _ _ => b.length
  | .amo _ n _ _ => n
  | .vamo _ n _ _ _ _ => n
  | .linked n => n
  | .cond b _ => b.length
  | .sadd n _ _ _ => n

/-- A request that reads joins those to send; stores of earlier members to the same bytes go before it (R193), and
a remote one goes only once such a store has been answered. -/
def Stage.emit (st : Stage) (e : Emit) : Stage :=
  if st.stores.any (fun x => x.place.meets (reqSize x.kind) e.place (reqSize e.kind)) then
    match e.place with
    | .phys _ => { st with emits := st.emits ++ st.stores ++ [e], stores := [] }
    | .remote _ _ _ => { st with emits := st.emits ++ st.stores, stores := [] }
  else { st with emits := st.emits ++ [e] }

/-! ## Scratchpad accesses of a member -/

/-- Grants of the process's stores, oldest first, until none overlaps the bytes (R246, R264) (DEDUCED, log 16). -/
def State.clearOverlap (s : State) (pid tile a n : Nat) : Nat → State
  | 0 => s
  | fuel + 1 =>
    if (s.tile tile).overlaps pid a n then
      match (s.tile tile).oldestSlice pid with
      | none => s
      | some k => match ((s.tile tile).fifo pid k).head? with
        | none => s
        | some e => ((s.flushStores pid (e.seq + 1)).settleStores pid).clearOverlap pid tile a n fuel
    else s

/-- A vector load's bytes at a scratchpad address, with the poison of their words, failed words included (R262). -/
def State.spadVRead (s : State) (pid tile a n : Nat) : State × List Byte × Bool :=
  let s := s.clearOverlap pid tile a n 32
  let (s, b, ps, _) := s.spadRead tile a n
  (s, b, ps.any id)

/-- Room for one more store in a FIFO: the oldest stores are granted first (R246) (DEDUCED, log 16). -/
def State.makeRoom (s : State) (pid tile slice : Nat) : State :=
  let l := (s.tile tile).fifo pid slice
  if l.length < 8 then s
  else match l.head? with
    | none => s
    | some e => (s.flushStores pid (e.seq + 1)).settleStores pid

/-! ## Loads (R262, R266-R268) -/

/-- What has come back for one unit: bytes and poison, or a cause; `none` while something is awaited. -/
abbrev Got := Option (Except Cause (List Byte × Bool))

/-- One piece of a unit, read or asked for. -/
def Stage.readPiece (st : Stage) (x : Here) (p : Proc) (pl : UnitPlan) (q : Piece) (j : Nat) : Stage × Got :=
  match q.place with
  | none =>
    let (s, b, psn) := st.s.spadVRead x.pid p.tile (pl.addr.toNat + q.off) q.n
    ({ st with s }, some (.ok (b, psn)))
  | some place =>
    match x.sent pl.u j with
    | none =>
      (st.emit { member := x.k, group := x.g, unit := pl.u, piece := j, place, kind := .read q.n, store := false
                 pure := true }, none)
    | some r => match r.reply with
      | none => (st, none)
      | some rep => match rep.cause with
        | some c => (st, some (.error c))
        | none => (st, some (.ok (rep.bytes, rep.poison.contains true)))

/-- The pieces of a unit. -/
def Stage.readPieces (st : Stage) (x : Here) (p : Proc) (pl : UnitPlan) : List Piece → Nat → Stage × Got
  | [], _ => (st, some (.ok ([], false)))
  | q :: qs, j =>
    let (st, a) := st.readPiece x p pl q j
    let (st, b) := st.readPieces x p pl qs (j + 1)
    (st, match a, b with
      | some (.error c), _ => some (.error c)
      | some (.ok _), some (.error c) => some (.error c)
      | some (.ok (b1, p1)), some (.ok (b2, p2)) => some (.ok (b1 ++ b2, p1 || p2))
      | _, _ => none)

/-- The units of a group, read or asked for, in ascending order. -/
def Stage.readUnits (st : Stage) (x : Here) (p : Proc) : List UnitPlan → Stage × List (UnitPlan × Got)
  | [] => (st, [])
  | pl :: pls =>
    if pl.psn then
      let (st, l) := st.readUnits x p pls
      (st, (pl, some (.ok ([], false))) :: l)
    else
      let qs := match pl.pieces with
        | .ok qs => qs
        | .error _ => []
      let (st, a) := st.readPieces x p pl qs 0
      let (st, l) := st.readUnits x p pls
      (st, (pl, a) :: l)

/-- The lowest unit whose reply failed. -/
def firstError : List (UnitPlan × Got) → Option (Nat × Word × Cause)
  | [] => none
  | (pl, some (.error c)) :: _ => some (pl.u, pl.addr, c)
  | _ :: l => firstError l

/-- What a unit's destination takes of what was read; one whose index is poisoned keeps its value and becomes
poisoned (R261, R262). -/
def MemOp.unitWrites (o : MemOp) (c : VCtx) (x : UnitPlan × Got) : List VWrite :=
  let (pl, got) := x
  if pl.psn then [markUnit (c.base o.vd) o.h.et pl.u true]
  else match got with
    | some (.ok (b, psn)) =>
      Machine.unitWrites (c.base o.vd) o.h.et pl.u
        (if o.h.et = .mx4 then leNat (b.take 1) + 2 ^ 16 * leNat (b.drop 1) else leNat b, psn)
    | _ => []

/-- A load's group (R262, R266); for a first-fault load, `f` is what it has met before, and the first active unit below
E is the lowest of the first group that has one (R268) (DEDUCED, log 18). -/
def Stage.load (st : Stage) (x : Here) (o : MemOp) (first : Bool) : Stage :=
  match st.proc x with
  | none => st
  | some p =>
    let met := if first then (st.ffe.find? (fun e => e.1 == x.k)).map (·.2) else none
    let all := st.s.planGroup x.c p o x.g
    let lead := if st.begun.contains x.k then none else all.head?.map (·.u)
    let plan := all.filter (fun pl => match met with
      | some f => decide (pl.u < f)
      | none => true)
    let st := st.note p (o.touched plan)
    let fail := o.firstFail plan
    let below := plan.takeWhile (fun pl => match fail with
      | some (f, _) => decide (pl.u < f)
      | none => true)
    let (st, got) := st.readUnits x p below
    if got.any (fun e => e.2.isNone) then st.blocked [vKey o.vd]
    else
      let fail := match firstError got with
        | some (u, a, c) => some (u, o.stopAt u c a 0)
        | none => fail
      let done := got.takeWhile (fun e => match fail with
        | some (f, _) => decide (e.1.u < f)
        | none => true)
      let st' := { st.put x (done.flatMap (o.unitWrites x.c)) with
                   begun := if first && !all.isEmpty && !st.begun.contains x.k then st.begun ++ [x.k] else st.begun }
      match fail with
      | none => st'
      | some (f, stop) =>
        if first && lead != some f then { st' with ffe := st.ffe ++ [(x.k, f)] } else { st with stop := some stop }

/-! ## Stores (R263, R264, R266) -/

/-- A byte to be stored: address, byte, poison, and the unit it comes from. -/
abbrev Cell := Nat × Byte × Bool × Nat

/-- A byte put into cells held with addresses falling; one already there is replaced (R263). -/
def cellPut : List Cell → Cell → List Cell
  | [], x => [x]
  | y :: l, x => if y.1 < x.1 then x :: y :: l else if y.1 = x.1 then x :: l else y :: cellPut l x

/-- Bytes put from an address up, addresses taken modulo 2^64. -/
def cellPuts (l : List Cell) (a : Nat) (psn : Bool) (u : Nat) : List Byte → List Cell
  | [] => l
  | b :: bs => cellPuts (cellPut l (a % 2 ^ 64, b, psn, u)) (a + 1) psn u bs

/-- A run of bytes: address, bytes and their poison, and the lowest unit in it. -/
structure Run where
  addr : Nat
  bytes : List Byte
  poison : List Bool
  unit : Nat
  deriving DecidableEq, Repr

/-- Cells, addresses falling, gathered into runs, none going on past an address that `cuts` names; runs rising. -/
def runsOf (cuts : Nat → Bool) (l : List Cell) : List Run :=
  l.foldl (fun rs x => match rs with
    | r :: rest =>
      if x.1 + 1 = r.addr ∧ cuts r.addr = false then
        { addr := x.1, bytes := x.2.1 :: r.bytes, poison := x.2.2.1 :: r.poison, unit := min x.2.2.2 r.unit } :: rest
      else { addr := x.1, bytes := [x.2.1], poison := [x.2.2.1], unit := x.2.2.2 } :: rs
    | [] => [{ addr := x.1, bytes := [x.2.1], poison := [x.2.2.1], unit := x.2.2.2 }]) []

/-- A run inserted by its lowest unit. -/
def insertRun (r : Run) : List Run → List Run
  | [] => [r]
  | x :: l => if r.unit ≤ x.unit then r :: x :: l else x :: insertRun r l

/-- The bytes of a unit as a store writes them (R263): of a `.mx4` slot, its scale and its data. -/
def MemOp.unitBytes (o : MemOp) (c : VCtx) (p : Proc) (u : Nat) : List Byte × Bool :=
  let base := c.base o.vd
  if o.h.et = .mx4 then
    let x := p.slotAt base u
    (leBytes 1 (slotScale x) ++ leBytes 16 (x / 2 ^ 16), p.slotPsn base u)
  else (leBytes o.z (p.elem base o.z u), p.elemPsn base o.z u)

/-- Poison of each word of a line, from the poison of a run's bytes. -/
def linePoison (a : Nat) : List Bool → Nat
  | [] => 0
  | b :: l => (if b then 2 ^ (a / 8 % 8) else 0) ||| linePoison (a + 1) l

/-- A byte entered among the words that store member `k` has written in part. -/
def enterPart (l : List PartWord) (k : Nat) (x : Cell) : List PartWord :=
  match l with
  | [] => [{ member := k, word := x.1 / 8, bytes := 1#8 <<< (x.1 % 8), poison := if x.2.2.1 then 1#8 <<< (x.1 % 8) else 0 }]
  | w :: ws =>
    if w.member = k ∧ w.word = x.1 / 8 then
      let b := 1#8 <<< (x.1 % 8)
      { w with bytes := w.bytes ||| b, poison := if x.2.2.1 then w.poison ||| b else w.poison &&& ~~~b } :: ws
    else w :: enterPart ws k x

/-- The words that store member `k` has by now written whole, with the poison of their final bytes (R263). -/
def wholeWords (l : List PartWord) (k : Nat) : List (Nat × Bool) :=
  (l.filter (fun w => w.member == k && w.bytes == 0xFF)).map (fun w => (w.word, w.poison != 0))

/-- Words of a run among those written whole, counted from the run's first word. -/
def Run.whole (r : Run) (l : List (Nat × Bool)) : List (Nat × Bool) :=
  (l.filter (fun w => decide (r.addr / 8 ≤ w.1) && decide (w.1 ≤ (r.addr + r.bytes.length - 1) / 8))).map
    (fun w => (w.1 - r.addr / 8, w.2))

/-- Bit `i` of a byte set or cleared. -/
def byteBit (m : BitVec 8) (i : Nat) (b : Bool) : BitVec 8 := if b then m ||| 1#8 <<< i else m &&& ~~~(1#8 <<< i)

/-- The line entry of the bytes of one line: several runs of it, `whole` the words now written whole (R246, R263). -/
def lineStore (rs : List Run) (whole : List (Nat × Bool)) : SpadStore :=
  rs.foldl (fun e r =>
    let full := (r.whole whole).map (fun w => ((r.addr / 8 + w.1) % 8, w.2))
    { e with
      enable := e.enable ||| lineEnable r.addr r.bytes.length
      bytes := e.bytes ||| BitVec.ofNat 512 (leNat r.bytes * 2 ^ (8 * (r.addr % 64)))
      poison := full.foldl (fun m w => byteBit m w.1 w.2) (e.poison ||| BitVec.ofNat 8 (linePoison r.addr r.poison))
      whole := full.foldl (fun m w => byteBit m w.1 true) e.whole })
    { seq := 0, line := ((rs.head?.map (·.addr)).getD 0) / 64 * 64, enable := 0, bytes := 0, poison := 0, vec := true
      rel := false }

/-- Runs of one line put together; lines by their lowest unit. -/
def byLine : List Run → List (List Run)
  | [] => []
  | r :: rs => match byLine rs with
    | (x :: l) :: rest => if x.addr / 64 = r.addr / 64 then (r :: x :: l) :: rest else [r] :: (x :: l) :: rest
    | l => [r] :: l

/-- A line inserted by its lowest unit. -/
def insertLine (r : List Run) : List (List Run) → List (List Run)
  | [] => [r]
  | x :: l =>
    let low := fun (q : List Run) => q.foldl (fun m v => min m v.unit) (2 ^ 64)
    if low r ≤ low x then r :: x :: l else x :: insertLine r l

/-- A line entry of its own in the slice's FIFO, once there is room. -/
def Stage.newLine (st : Stage) (x : Here) (p : Proc) (e : SpadStore) : Stage :=
  let k := spSlice e.line
  let s := st.s.makeRoom x.pid p.tile k
  let seq := ((s.proc? x.pid).map (·.storeSeq)).getD 0
  { st with s := s.enterStore x.pid e, lines := mset st.lines (4 * x.k + k) seq }

/-- A line's bytes enter the slice's FIFO: with the entry that the member has made last there, where that is of the same
line and still waits, else as an entry of their own (R246, R264). -/
def Stage.storeLine (st : Stage) (x : Here) (p : Proc) (e : SpadStore) : Stage :=
  let k := spSlice e.line
  match ((st.s.tile p.tile).fifo x.pid k).getLast? with
  | some y =>
    if mget st.lines (4 * x.k + k) = some y.seq ∧ y.line = e.line then
      { st with s := st.s.modTile p.tile (fun t => t.setFifo x.pid k ((t.fifo x.pid k).dropLast ++ [y.join e])) }
    else st.newLine x p e
  | none => st.newLine x p e

/-- One run stored to device memory: a request held until every member has passed. The request's `unit` is the run's
address and its `piece` the lowest unit in it. -/
def Stage.storeRun (st : Stage) (x : Here) (p : Proc) (o : MemOp) (whole : List (Nat × Bool)) (r : Run) : Stage :=
  if (x.sent r.addr r.unit).isSome then st
  else match st.s.vectorPlace p (BitVec.ofNat 64 r.addr) o.access with
    | .error _ => st
    | .ok place =>
      let kind : ReqKind := match r.whole whole with
        | [] => .write r.bytes r.poison
        | l => .fill r.bytes r.poison l
      let e : Emit := { member := x.k, group := x.g, unit := r.addr, piece := r.unit, place, kind, store := true
                        pure := false }
      { st with stores := st.stores ++ [e] }

/-- A byte of a unit of the plan stands at the start of a block of its path (R365). -/
def cutAt (plan : List UnitPlan) (a : Nat) : Bool :=
  a % 64 = 0 || (a % 32 = 0 && plan.any (fun pl => match pl.pieces with
    | .ok qs => qs.any (fun q =>
        (match q.place with
          | some (.remote _ _ _) => true
          | _ => false)
        && decide ((pl.addr.toNat + q.off) % 2 ^ 64 ≤ a) && decide (a < (pl.addr.toNat + q.off) % 2 ^ 64 + q.n))
    | .error _ => false))

/-- A store's group (R246, R263, R266). Words of less than eight bytes at a time are followed over the groups; a unit-stride
store comes to a word once more only where it has not written it whole. -/
def Stage.store (st : Stage) (x : Here) (o : MemOp) : Stage :=
  match st.proc x with
  | none => st
  | some p =>
    let plan := st.s.planGroup x.c p o x.g
    let st := st.note p (o.touched plan)
    match o.firstFail plan with
    | some (_, stop) => { st with stop := some stop }
    | none =>
      let cells := plan.foldl (fun l pl =>
        let (b, psn) := o.unitBytes x.c p pl.u
        cellPuts l pl.addr.toNat psn pl.u b) []
      let parts := if o.z = 8 then st.parts else cells.foldl (fun l b => enterPart l x.k b) st.parts
      let again := o.idx.isSome || o.stride.isSome
      let whole := wholeWords parts x.k
      let st := { st with parts := parts.filter (fun w => w.member != x.k || again || w.bytes != 0xFF) }
      let runs := runsOf (cutAt plan) cells
      let near := runs.filter (fun r => !inDevice (BitVec.ofNat 64 r.addr))
      let far := runs.filter (fun r => inDevice (BitVec.ofNat 64 r.addr))
      let st := ((byLine near).foldr insertLine []).foldl (fun st l => st.storeLine x p (lineStore l whole)) st
      ((far.foldr insertRun []).foldl (fun st r => st.storeRun x p o whole r) st).put x []

/-! ## Atomics, linked accesses, scatter-add (R320-R327) -/

/-- The request of a unit. -/
def MemOp.request (o : MemOp) (c : VCtx) (p : Proc) (u : Nat) : ReqKind :=
  let z := o.z
  let flt := o.h.et == .f32
  let d := p.elem (c.base o.vd) z u
  let dp := p.elemPsn (c.base o.vd) z u
  match o.kind with
  | .amo op _ _ =>
    .vamo op z flt (p.elem (c.base o.x) z u) d (p.elemPsn (c.base o.x) z u || (op == .cas && dp))
  | .linked => .linked z
  | .cond _ => .cond (leBytes z d) (List.replicate z dp)
  | .sadd => .sadd z flt d dp
  | _ => .read z

/-- The server a place belongs to, remote packages beyond the servers. -/
def Place.server : Place → Nat
  | .phys pa => serverOf pa
  | .remote pkg _ _ => 256 + pkg

/-- The line a place lies in. -/
def Place.line : Place → Nat × Nat × Nat
  | .phys pa => (0, 0, pa / 64)
  | .remote pkg key off => (pkg + 1, key.toNat, off / 64)

/-- The line of a unit. -/
def UnitPlan.line? (pl : UnitPlan) : Option (Nat × Nat × Nat) :=
  match pl.psn, pl.pieces with
  | false, .ok ({ place := some place, .. } :: _) => some place.line
  | _, _ => none

/-- Elements in an order that choices give (R324). -/
def State.shuffle {α : Type} (s : State) (l : List α) : Nat → State × List α
  | 0 => (s, l)
  | n + 1 =>
    let (k, s) := s.pick l.length
    match l[k]? with
    | none => (s, l)
    | some x =>
      let (s, rest) := s.shuffle (l.eraseIdx k) n
      (s, x :: rest)

/-- The units of a group in the order they are sent: units of one instruction are unordered, which shows where two of
them reach one line (R324, R325). -/
def Stage.unitOrder (st : Stage) (inOrder : Bool) (plan : List UnitPlan) : Stage × List UnitPlan :=
  let lines := plan.filterMap (·.line?)
  if inOrder || decide lines.Nodup then (st, plan)
  else
    let (s, l) := st.s.shuffle plan plan.length
    ({ st with s }, l)

/-- Requests of the units in order. A VAMOO sends a unit bound for another server, or for another package, only
once the reply to the last unit sent has come (R324). -/
def Stage.askUnits (st : Stage) (x : Here) (p : Proc) (o : MemOp) (inOrder : Bool) (last : Option (Nat × Bool)) :
    List UnitPlan → Stage
  | [] => st
  | pl :: pls =>
    if pl.psn then st.askUnits x p o inOrder last pls
    else match x.sent pl.u 0, pl.pieces with
      | some r, .ok ({ place := some place, .. } :: _) =>
        st.askUnits x p o inOrder (some (place.server, r.reply.isSome)) pls
      | some r, _ => st.askUnits x p o inOrder (some (0x10000, r.reply.isSome)) pls
      | none, .ok ({ place := some place, .. } :: _) =>
        let free := match last with
          | none => true
          | some (srv, replied) => replied || (srv == place.server && decide (srv < 256))
        if inOrder && !free then st
        else
          (st.emit { member := x.k, group := x.g, unit := pl.u, piece := 0, place, kind := o.request x.c p pl.u
                     store := false, pure := false }).askUnits x p o inOrder (some (place.server, false)) pls
      | none, _ => st.askUnits x p o inOrder last pls

/-- What has come back for a unit. -/
def Here.replyOf (x : Here) (u : Nat) : Option Reply :=
  match x.sent u 0 with
  | some r => r.reply
  | none => none

/-- The lowest unit whose reply failed. -/
def Here.failedUnit (x : Here) : List UnitPlan → Option (Nat × Word × Cause)
  | [] => none
  | pl :: pls => match (x.replyOf pl.u).bind (·.cause) with
    | some c => some (pl.u, pl.addr, c)
    | none => x.failedUnit pls

/-- Registers the member writes, as taints. -/
def MemOp.dests (o : MemOp) : List Nat :=
  match o.kind with
  | .load => [vKey o.vd]
  | .firstFault => [vKey o.vd]
  | .linked => [vKey o.vd]
  | .amo _ _ true => [vKey o.vd]
  | .cond kd => if kd = 0 then [] else [kKey kd]
  | _ => []

/-- The results of an atomic's group, once every reply has come (R323, R325, R326). -/
def MemOp.atomicWrites (o : MemOp) (x : Here) (plan : List UnitPlan) : List VWrite :=
  let live := plan.filter (fun pl => !pl.psn)
  let flags := live.filterMap (fun pl => (x.replyOf pl.u).map (fun r => VWrite.flags r.flags))
  let values := plan.flatMap (fun pl => o.unitWrites x.c (pl, (x.replyOf pl.u).map (fun r =>
    .ok (r.bytes, r.poison.contains true))))
  match o.kind with
  | .linked => flags ++ values
  | .amo _ _ true => flags ++ values
  | .cond kd =>
    flags ++ [.bits kd (live.map (fun pl => (pl.u, (x.replyOf pl.u).any (·.ok))))]
      ++ (if x.g + 1 = groupsOf o.h.et x.c.lrows then [.clip kd (vlmax o.h.et x.c.lrows)] else [])
  | _ => flags

/-- A group of VAMO, VAMOO, VLDGL, VSTSC or VSADD: no unit is sent until every active unit has passed, and one that has
been sent is not checked again (R327). -/
def Stage.atomic (st : Stage) (x : Here) (o : MemOp) (inOrder : Bool) : Stage :=
  match st.proc x with
  | none => st
  | some p =>
    let plan := st.s.planGroup x.c p o x.g
    let begun := plan.any (fun pl => (x.sent pl.u 0).isSome)
    let st := st.note p (o.touched (plan.filter (fun pl => (x.sent pl.u 0).isNone)))
    match o.firstFail (plan.filter (fun pl => !(begun && (x.sent pl.u 0).isSome))) with
    | some (_, stop) => { st with stop := some stop }
    | none =>
      if plan.all (fun pl => pl.psn || (x.replyOf pl.u).isSome) then
        match x.failedUnit plan with
        | some (u, a, c) => { st with stop := some (o.stopAt u c a 0) }
        | none => st.put x (o.atomicWrites x plan)
      else
        let (st, plan) := if begun then (st, plan) else st.unitOrder inOrder plan
        (st.askUnits x p o inOrder none plan).blocked o.dests

/-- A group of a memory member. -/
def Stage.memory (st : Stage) (x : Here) (o : MemOp) : Stage :=
  match o.kind with
  | .load => st.load x o false
  | .firstFault => st.load x o true
  | .store => st.store x o
  | .amo _ inOrder _ => st.atomic x o inOrder
  | .linked => st.atomic x o false
  | .cond _ => st.atomic x o false
  | .sadd => st.atomic x o false

/-! ## VSEND and VRECV (R167-R169) -/

/-- The live chunks of a group with their active elements (R168). -/
def VCtx.liveChunks (c : VCtx) (h : VHdr) (p : Proc) (g : Nat) : List (Nat × List Nat) :=
  let sz := etSize h.et
  ((List.range sz).map (fun j =>
    (g * sz + j, ((List.range (64 / sz)).map ((g * sz + j) * (64 / sz) + ·)).filter
      (fun e => c.active h p (vlmax h.et c.lrows) e)))).filter (fun x => !x.2.isEmpty)

/-- The token of a chunk (R168). -/
def VCtx.chunkToken (c : VCtx) (h : VHdr) (p : Proc) (va : VReg) (tag : BitVec 7) (x : Nat × List Nat) : Token :=
  let sz := etSize h.et
  let per := 64 / sz
  let data := x.2.foldl (fun n e => n + p.elem (c.base va) sz e * 2 ^ (8 * sz * (e % per))) 0
  { data := leBytes 64 data, tag := tag.setWidth 8
    poison := (List.range 8).map (fun w =>
      x.2.any (fun e => p.elemPsn (c.base va) sz e && decide (e % per * sz / 8 = w))) }

/-- The tokens of a VSEND group placed: behind the scalar sends of that port whose tokens still wait to be launched
(R157), else on their way at once. -/
def State.placeTokens (s : State) (pid c k : Nat) (toks : List Token) : State :=
  s.modProc pid (fun p => { p with launches := p.launches ++
    (if p.launches.any (fun l => l.chan == c && l.prod == k) then
      toks.map (fun t => { chan := c, prod := k, token := t, after := 0 }) else []) })
  |> fun s' => if (s.proc? pid).any (fun p => p.launches.any (fun l => l.chan == c && l.prod == k)) then s'
    else toks.foldl (fun s t => s.launch c k t) s

/-- A group of VSEND (R168): all its tokens in one step, or none. -/
def Stage.send (st : Stage) (x : Here) (h : VHdr) (va : VReg) (q : Port) (tag : BitVec 7) : Stage :=
  match st.proc x with
  | none => st
  | some p => match p.port q.toNat with
    | none => st
    | some (c, _) => match st.s.chan? c with
      | none => st
      | some ch =>
        let toks := (x.c.liveChunks h p x.g).map (x.c.chunkToken h p va tag)
        if st.s.consumerRetired ch then { st with s := st.s.countDiscard ch toks.length }.put x []
        else match ch.prodOf (.proc x.pid q.toNat) with
          | none => st
          | some k => match ch.prods[k]? with
            | none => st
            | some d =>
              if d.credits < toks.length then { st with wait := true, port := some (st.port.getD (q.toNat, x.k)) }
              else { st with s := (st.s.spend c k toks.length).placeTokens x.pid c k toks }.put x []

/-- The cause of a token that VRECV does not take (R168). -/
def tokenCause (t : Token) : Option Cause :=
  if t.tag = 128 then some 0x32 else if t.tag ≠ 0 then some 0x31 else none

/-- The active elements of a chunk as its token gives them (R168). -/
def VCtx.chunkWrites (c : VCtx) (h : VHdr) (vd : VReg) (x : (Nat × List Nat) × Token) : List VWrite :=
  let sz := etSize h.et
  let per := 64 / sz
  let data := leNat x.2.data
  elemWrites (c.base vd) sz (x.1.2.map (fun e =>
    (e, data / 2 ^ (8 * sz * (e % per)) % 2 ^ (8 * sz), (x.2.poison[e % per * sz / 8]?).getD false)))

/-- A group of VRECV (R168). -/
def Stage.recv (st : Stage) (x : Here) (h : VHdr) (vd : VReg) (q : Port) : Stage :=
  match st.proc x with
  | none => st
  | some p => match p.port q.toNat with
    | none => st
    | some (c, _) => match st.s.chan? c with
      | none => st
      | some ch =>
        let chunks := x.c.liveChunks h p x.g
        let toks := (ch.buffer.take chunks.length).map (·.2)
        if toks.length < chunks.length || (!chunks.isEmpty && p.triggered q.toNat) then
          { (st.blocked [vKey vd]) with port := some (st.port.getD (q.toNat, x.k)) }
        else match toks.findSome? tokenCause with
          | some cause => { st with stop := some { cause, addr := 0, info := 0 } }
          | none =>
            { st with s := st.s.consume c chunks.length }.put x ((chunks.zip toks).flatMap (x.c.chunkWrites h vd))

end Sys2Proof.Machine
end

