-- ==== Sys2Proof/Machine/Matrix.lean ====
section
/-!
DEFINITION. What the matrix instructions do to accumulators, span latches, vector registers and memory
(R271-R289).
-/

namespace Sys2Proof.Machine

/-! ## Accumulators and latches (R271-R273) -/

/-- Key of an accumulator element. -/
def accKey (d m n : Nat) : Nat := 4096 * d + 64 * m + n

/-- An accumulator element with its poison. -/
def Proc.accAt (p : Proc) (k : Nat) : Nat × Bool := ((mgetD p.acc k 0).toNat, p.accPoison.contains k)

/-- An accumulator element written. -/
def Proc.putAcc (p : Proc) (k x : Nat) (psn : Bool) : Proc :=
  { p with acc := mput0 p.acc k (BitVec.ofNat 56 x), accPoison := nsPut p.accPoison k psn }

/-- Byte `b` of a latch: image, then scale side. -/
def Proc.latchByte (p : Proc) (sl b : Nat) : Nat := (memByte p.latch (8192 * sl + b)).toNat

/-- Poison of the word that holds a byte of a latch. -/
def Proc.latchPsn (p : Proc) (sl b : Nat) : Bool := p.latchPoison.contains ((8192 * sl + b) / 8)

/-- Every element of a tile zero, with poison clear (R285). -/
def Proc.zeroAcc (p : Proc) (d : Nat) : Proc :=
  { p with acc := p.acc.filter (fun x => x.1 / 4096 != d), accPoison := p.accPoison.filter (fun k => k / 4096 != d) }

/-! ## MOPA and MOPS (R281-R284) -/

/-- Elements a K-step combines (R282). -/
def kElems (t : ETy) : Nat :=
  match t with
  | .f16 => 1
  | .bf16 => 1
  | .mx4 => 4
  | _ => 2

/-- Index of A(m, r, i) in its register (R282). -/
def aIndex (t : ETy) (m r i : Nat) : Nat :=
  match kElems t with
  | 1 => 64 * r + m
  | 2 => 128 * r + 2 * m + i
  | _ => 32 * (64 * (r / 8) + m) + 4 * (r % 8) + i

/-- Byte of B(r, n, i) in the latch image (R282). -/
def bByte (t : ETy) (n r i : Nat) : Nat :=
  match kElems t with
  | 1 => 128 * r + 2 * n
  | 2 => 128 * r + 2 * n + i
  | _ => 128 * r + 2 * n + i / 2

/-- The bits and poison of A(m, r, i). -/
def VCtx.aElem (c : VCtx) (t : ETy) (va : VReg) (p : Proc) (m r i : Nat) : Nat × Bool :=
  let e := aIndex t m r i
  if t = .mx4 then
    let u := e / 32
    (slotCode (p.slotAt (c.base va) u) (e % 32), p.slotPsn (c.base va) u)
  else c.pat t va p e

/-- The bits and poison of B(r, n, i). -/
def bElem (t : ETy) (sl : Nat) (p : Proc) (n r i : Nat) : Nat × Bool :=
  let b := bByte t n r i
  let x := p.latchByte sl b
  let psn := p.latchPsn sl b
  if kElems t = 1 then (x + 256 * p.latchByte sl (b + 1), psn)
  else if t = .mx4 then (if i % 2 = 0 then x % 16 else x / 16, psn)
  else (x, psn)

/-- The format of matrix operands. -/
def matFmt (t : ETy) : Fmt := if t = .mx4 then fE2m1 else etFmtD t

/-- The exact sum of products, with the invalid flag (R103, R104). -/
def sumProducts (F : Fmt) (cls : ACls) : List (Nat × Nat) → FVal × Bool
  | [] => (.fin false 0 0, false)
  | [x] => FVal.mul cls F.p (F.decode x.1) (F.decode x.2)
  | x :: xs =>
    let (a, na) := FVal.mul cls F.p (F.decode x.1) (F.decode x.2)
    let (b, nb) := sumProducts F cls xs
    let (s, ns) := a.add b
    (s, na || nb || ns)

/-- One accumulation step of element (m, n): the process, where some A element of the step is active (R283). -/
def VCtx.matStep (c : VCtx) (h : VHdr) (va : VReg) (sl : Nat) (neg : Bool) (p0 : Proc) (m n : Nat)
    (acc : (Nat × Bool) × Flags) (r : Nat) : (Nat × Bool) × Flags :=
  let t := h.et
  let lim := if t = .mx4 then 896 * c.lrows else vlmax t c.lrows
  let on := (List.range (kElems t)).filter (fun i => c.active h p0 lim (aIndex t m r i))
  if on.isEmpty then acc
  else
    let ops := on.map (fun i => (c.aElem t va p0 m r i, bElem t sl p0 n r i))
    let sbAt := 4096 + 64 * (r / 8) + n
    let psn := ops.any (fun x => x.1.2) || (List.range (kElems t)).any (fun i => (bElem t sl p0 n r i).2)
      || (t == .mx4 && p0.latchPsn sl sbAt)
    let old := acc.1.1
    if t = .i8 then
      let x := ops.foldl (fun (s : Int) x => s + signedOf 8 x.1.1 * signedOf 8 x.2.1) 0
      ((bitsOf 56 ((old : Int) + if neg then -x else x), acc.1.2 || psn), acc.2)
    else
      let (x, nv) := sumProducts (matFmt t) h.cls (ops.map (fun x => (x.1.1, x.2.1)))
      let (x, nv) :=
        if t = .mx4 then
          let sa := slotScale (p0.slotAt (c.base va) (aIndex t m r 0 / 32))
          let sb := p0.latchByte sl sbAt
          if sa = 255 ∨ sb = 255 then (FVal.nan, false)
          else (x.scale (((sa : Int) - 127) + ((sb : Int) - 127)), nv)
        else (x, nv)
      let (y, nv') := (fW56.decode old).add (if neg then x.neg else x)
      let (bits, fl) := roundVal fW56 y
      ((bits, acc.1.2 || psn), (acc.2.or fl).or (Flags.nvIf (nv || nv')))

/-- MOPA and MOPS (R283) on the granted rows and columns of the 64 by 64 that a tile has (R271). -/
def VCtx.outer (c : VCtx) (h : VHdr) (d : Nat) (va : VReg) (sl : Nat) (neg : Bool) (p : Proc) : Proc :=
  (List.range (min 64 c.grant.m)).foldl (fun q m =>
    (List.range (min 64 c.grant.n)).foldl (fun q n =>
      let k := accKey d m n
      let (x, fl) := (List.range c.grant.k).foldl (c.matStep h va sl neg p m n) (q.accAt k, Flags.none)
      (q.putAcc k x.1 x.2).raise fl) q) p

/-! ## MREAD and MWRITE (R286, R287) -/

/-- Elements the two instructions act on, with the accumulator element each stands for. -/
def VCtx.rowElems (c : VCtx) (h : VHdr) (m0 : Nat) (p : Proc) : List (Nat × Nat × Nat) :=
  let n := min (vlmax h.et c.lrows) (64 * (64 - m0))
  ((c.actives h p n).map (fun e => (e, m0 + e / 64, e % 64))).filter
    (fun x => decide (x.2.1 < c.grant.m) && decide (x.2.2 < c.grant.n))

/-- What MREAD makes of an accumulator element. -/
def readAcc (t : ETy) (rm : RMode) (key w : Nat) : Nat × Flags :=
  match t with
  | .i32 =>
    let (n, fl) := convertInt (etMin .i32) (etMax .i32) (FVal.ofInt (signedOf 56 w)) .rne 0
    (bitsOf 32 n, fl)
  | .w56 => (w, Flags.none)
  | _ => convertFlt (etFmtD t) (fW56.decode w) rm false key

/-- MREAD (R287). -/
def VCtx.mread (c : VCtx) (h : VHdr) (d : Nat) (va : VReg) (m0 : Nat) (rm : RMode) (p : Proc) : Proc :=
  p.puts (flaggedWrites (c.base va) (etSize h.et) ((c.rowElems h m0 p).map (fun x =>
    let a := p.accAt (accKey d x.2.1 x.2.2)
    (x.1, readAcc h.et rm (srBits c.seed va.toNat x.1) a.1, a.2))))

/-- What MWRITE makes of a vector element. -/
def writeAcc (t : ETy) (x : Nat) : Nat :=
  match t with
  | .i32 => bitsOf 56 (signedOf 32 x)
  | .w56 => x % 2 ^ 56
  | _ => (convertFlt fW56 ((etFmtD t).decode x) .rne false 0).1

/-- MWRITE (R287). -/
def VCtx.mwrite (c : VCtx) (h : VHdr) (d : Nat) (va : VReg) (m0 : Nat) (p : Proc) : Proc :=
  (c.rowElems h m0 p).foldl (fun q x =>
    let a := c.pat h.et va p x.1
    q.putAcc (accKey d x.2.1 x.2.2) (writeAcc h.et a.1) a.2) p

/-! ## MSAVE and MLOAD (R288, R289) -/

/-- What MSAVE and MLOAD move: a tile, or a latch with or without its scale side. -/
inductive MTarget where
  | tile (d : Nat)
  | latch (sl : Nat) (scale : Bool)
  deriving DecidableEq, Repr

/-- Bytes moved. -/
def MTarget.bytes : MTarget → Nat
  | .tile _ => 28672
  | .latch _ true => 4352
  | .latch _ false => 4096

/-- Byte `b` of the target with its poison. -/
def MTarget.byteAt (g : MTarget) (p : Proc) (b : Nat) : Byte × Bool :=
  match g with
  | .tile d =>
    let (x, psn) := p.accAt (4096 * d + b / 7)
    (BitVec.ofNat 8 (x / 2 ^ (8 * (b % 7))), psn)
  | .latch sl _ => (BitVec.ofNat 8 (p.latchByte sl b), p.latchPsn sl b)

/-- Elements of a tile written from bytes and their poison, element `e` onward. -/
def putTile (d e : Nat) (p : Proc) : List (Byte × Bool) → Nat → Proc
  | _, 0 => p
  | l, n + 1 =>
    let el := l.take 7
    putTile d (e + 1) (p.putAcc (4096 * d + e) (leNat (el.map (·.1))) (el.any (·.2))) (l.drop 7) n

/-- Words of a latch written from bytes and their poison, byte `b` onward. -/
def putLatch (sl b : Nat) (p : Proc) : List (Byte × Bool) → Nat → Proc
  | _, 0 => p
  | l, n + 1 =>
    let el := l.take 8
    putLatch sl (b + 8)
      { p with latch := memPutBytes p.latch (8192 * sl + b) (el.map (·.1))
               latchPoison := nsPut p.latchPoison ((8192 * sl + b) / 8) (el.any (·.2)) } (l.drop 8) n

/-- The target written whole. -/
def MTarget.put (g : MTarget) (p : Proc) (l : List (Byte × Bool)) : Proc :=
  match g with
  | .tile d => putTile d 0 p l 4096
  | .latch sl _ => putLatch sl 0 p l (g.bytes / 8)

/-- The address of a transfer (R289). -/
def VCtx.matAddr (c : VCtx) (vc : GReg) (disp : BitVec 16) : Word := c.gen vc + signExt disp

/-- The checks of every line, the lowest first: the pieces of each, or the lowest failing address (R289). -/
def State.matLines (s : State) (p : Proc) (t : Word) (kind : Nat) : List Nat → Except VStop (List (Nat × List Piece))
  | [] => .ok []
  | j :: js =>
    let a := t + BitVec.ofNat 64 (64 * j)
    match s.piecesAt p a 64 kind false with
    | .error (cause, info) => .error { cause, addr := a, info }
    | .ok q => match s.matLines p t kind js with
      | .error e => .error e
      | .ok l => .ok ((j, q) :: l)

/-- The address and line checks (R289). -/
def State.matPlan (s : State) (p : Proc) (c : VCtx) (vc : GReg) (disp : BitVec 16) (g : MTarget) (kind : Nat) :
    Except VStop (List (Nat × List Piece)) :=
  let t := c.matAddr vc disp
  if t.toNat % 64 ≠ 0 then .error { cause := 0x08, addr := t, info := 0 }
  else s.matLines p t kind (List.range (g.bytes / 64))

/-- The lines a transfer translates, where its address is aligned. -/
def VCtx.matTouched (c : VCtx) (vc : GReg) (disp : BitVec 16) (g : MTarget) : List Word :=
  let t := c.matAddr vc disp
  if t.toNat % 64 ≠ 0 then [] else (List.range (g.bytes / 64)).map (fun j => t + BitVec.ofNat 64 (64 * j))

/-- The lowest line whose reply failed. -/
def failedLine (x : Here) (t : Word) : List UReq → Option VStop
  | [] => none
  | r :: rs =>
    if r.member = x.k then
      match r.reply.bind (·.cause) with
      | some c => some { cause := c, addr := t + BitVec.ofNat 64 (64 * r.unit), info := 0 }
      | none => failedLine x t rs
    else failedLine x t rs

/-- The bytes of a line of the target, with their poison. -/
def MTarget.line (g : MTarget) (p : Proc) (b n : Nat) : List (Byte × Bool) :=
  (List.range n).map (fun i => g.byteAt p (b + i))

/-- MSAVE (R289): scratchpad lines into their FIFOs in ascending order, device lines as requests. -/
def Stage.msave (st : Stage) (x : Here) (vc : GReg) (disp : BitVec 16) (g : MTarget) : Stage :=
  match st.proc x with
  | none => st
  | some p =>
    let st := st.note p (x.c.matTouched vc disp g)
    match st.s.matPlan p x.c vc disp g kWrite with
    | .error e => { st with stop := some e }
    | .ok lines =>
      let t := x.c.matAddr vc disp
      let st := lines.foldl (fun st l =>
        l.2.zipIdx.foldl (fun (st : Stage) q =>
          let a := t.toNat + 64 * l.1 + q.1.off
          let cells := g.line p (64 * l.1 + q.1.off) q.1.n
          match q.1.place with
          | none =>
            let s := st.s.makeRoom x.pid p.tile (spSlice a)
            { st with s := s.pushStore x.pid a (cells.map (·.1)) (BitVec.ofNat 8 (linePoison a (cells.map (·.2)))) true false }
          | some place =>
            match x.sent l.1 q.2 with
            | some r => if r.reply.isSome then st else { st with wait := true }
            | none =>
              { st with
                wait := true
                emits := st.emits ++ [{ member := x.k, group := 0, unit := l.1, piece := q.2, place
                                        kind := .write (cells.map (·.1)) (cells.map (·.2)), store := true, pure := false }] })
          st) st
      if st.wait then st
      else match failedLine x t x.reqs with
        | some e => { st with stop := some e }
        | none => st

/-- The bytes of one line of an MLOAD, read or asked for. -/
def Stage.mloadLine (st : Stage) (x : Here) (p : Proc) (t : Word) (l : Nat × List Piece) :
    Stage × List (Byte × Bool) :=
  l.2.zipIdx.foldl (fun (acc : Stage × List (Byte × Bool)) q =>
    let (st, bs) := acc
    let a := t.toNat + 64 * l.1 + q.1.off
    match q.1.place with
    | none =>
      let s := st.s.clearOverlap x.pid p.tile a q.1.n 32
      let (s, b, ps, _) := s.spadRead p.tile a q.1.n
      ({ st with s }, bs ++ b.zip ps)
    | some place => match x.sent l.1 q.2 with
      | some r => match r.reply with
        | some rep => (st, bs ++ rep.bytes.zip rep.poison)
        | none => ({ st with wait := true }, bs)
      | none =>
        ({ st with
            wait := true
            emits := st.emits ++ [{ member := x.k, group := 0, unit := l.1, piece := q.2, place, kind := .read q.1.n, store := false
                                    pure := true }] }, bs)) (st, [])

/-- MLOAD (R289): the destination is written only once every byte has arrived. -/
def Stage.mload (st : Stage) (x : Here) (vc : GReg) (disp : BitVec 16) (g : MTarget) : Stage :=
  match st.proc x with
  | none => st
  | some p =>
    let st := st.note p (x.c.matTouched vc disp g)
    match st.s.matPlan p x.c vc disp g kRead with
    | .error e => { st with stop := some e }
    | .ok lines =>
      let t := x.c.matAddr vc disp
      let (st, bs) := lines.foldl (fun (acc : Stage × List (Byte × Bool)) l =>
        let (st, b) := acc.1.mloadLine x p t l
        (st, acc.2 ++ b)) (st, [])
      if st.wait then st
      else match failedLine x t x.reqs with
        | some e => { st with stop := some e }
        | none => { st with s := st.s.modProc x.pid (fun p => g.put p bs) }

/-- A member that changes the process and no more. -/
def Stage.onProc (st : Stage) (x : Here) (f : Proc → Proc) : Stage := { st with s := st.s.modProc x.pid f }

/-- A matrix member carried out, whole or not at all (R280). -/
def Stage.matrix (st : Stage) (x : Here) (i : Instr) : Stage :=
  match i with
  | .mzero _ acc => st.onProc x (fun p => p.zeroAcc acc.toNat)
  | .mopa h acc va sl => st.onProc x (x.c.outer h acc.toNat va sl.toNat false)
  | .mops h acc va sl => st.onProc x (x.c.outer h acc.toNat va sl.toNat true)
  | .mread h acc va m0 rm => st.onProc x (x.c.mread h acc.toNat va m0.toNat rm)
  | .mwrite h acc va m0 => st.onProc x (x.c.mwrite h acc.toNat va m0.toNat)
  | .msaveAcc _ _ acc vc disp => st.msave x vc disp (.tile acc.toNat)
  | .msaveLatch _ _ sl scale vc disp => st.msave x vc disp (.latch sl.toNat scale)
  | .mloadAcc _ _ acc vc disp => st.mload x vc disp (.tile acc.toNat)
  | .mloadLatch _ _ sl scale vc disp => st.mload x vc disp (.latch sl.toNat scale)
  | _ => st

end Sys2Proof.Machine
end

