-- ==== Sys2Proof/Machine/VUse.lean ====
section
/-!
DEFINITION. What each vector word reads and writes (R197, R278), and the member it is as part of a convoy.
-/

namespace Sys2Proof.Machine

/-- The registers a word reads, writes and accumulates into, each with the width of its elements in thirty-seconds
of a byte (0 where no element is concerned); general registers read, and written. -/
structure Use where
  r : List (Nat × Nat)
  w : List (Nat × Nat)
  m : List (Nat × Nat)
  gr : List GReg
  gw : List GReg
  deriving DecidableEq, Repr

/-- Nothing read or written. -/
def Use.none : Use := ⟨[], [], [], [], []⟩

/-- Width of an element in thirty-seconds of a byte; a slot of 18 bytes holds 32 `.mx4` elements (R90). -/
def elBits (t : ETy) : Nat := if t = .mx4 then 18 else 32 * etSize t

/-- A mask among the registers; k0 is none (R56). -/
def kUse (k : KReg) (n : Nat) : List (Nat × Nat) := if k = 0 then [] else [(kKey k, n)]

/-- Key of an accumulator tile. -/
def accUse (acc : BitVec 2) : Nat := 64 + acc.toNat
/-- Key of a span latch. -/
def latchUse (sl : BitVec 1) : Nat := 68 + sl.toNat
/-- Key of FFE. -/
def ffeKey : Nat := 70

/-- What a vector word reads and writes. -/
def useOf (i : Instr) : Use :=
  match i with
  | .vstop => Use.none
  | .vnop _ => Use.none
  | .vsig _ => Use.none
  | .vpsn h kd va =>
    ⟨[(vKey va, elBits h.et)] ++ kUse h.km (elBits h.et), kUse kd (elBits h.et), [], [], []⟩
  | .vpclr h vd =>
    ⟨kUse h.km (elBits h.et), [(vKey vd, elBits h.et)], [], [], []⟩
  | .mring sl =>
    ⟨[], [(latchUse sl, 0)], [], [], []⟩
  | .vadd h vd va vb =>
    ⟨[(vKey va, elBits h.et), (vKey vb, elBits h.et)] ++ kUse h.km (elBits h.et), [(vKey vd, elBits h.et)], [], [], []⟩
  | .vaddImm h vd va _ =>
    ⟨[(vKey va, elBits h.et)] ++ kUse h.km (elBits h.et), [(vKey vd, elBits h.et)], [], [], []⟩
  | .vsub h vd va vb =>
    ⟨[(vKey va, elBits h.et), (vKey vb, elBits h.et)] ++ kUse h.km (elBits h.et), [(vKey vd, elBits h.et)], [], [], []⟩
  | .vsubImm h vd va _ =>
    ⟨[(vKey va, elBits h.et)] ++ kUse h.km (elBits h.et), [(vKey vd, elBits h.et)], [], [], []⟩
  | .vadds h vd va vb =>
    ⟨[(vKey va, elBits h.et), (vKey vb, elBits h.et)] ++ kUse h.km (elBits h.et), [(vKey vd, elBits h.et)], [], [], []⟩
  | .vaddsImm h vd va _ =>
    ⟨[(vKey va, elBits h.et)] ++ kUse h.km (elBits h.et), [(vKey vd, elBits h.et)], [], [], []⟩
  | .vsubs h vd va vb =>
    ⟨[(vKey va, elBits h.et), (vKey vb, elBits h.et)] ++ kUse h.km (elBits h.et), [(vKey vd, elBits h.et)], [], [], []⟩
  | .vsubsImm h vd va _ =>
    ⟨[(vKey va, elBits h.et)] ++ kUse h.km (elBits h.et), [(vKey vd, elBits h.et)], [], [], []⟩
  | .vmul h vd va vb =>
    ⟨[(vKey va, elBits h.et), (vKey vb, elBits h.et)] ++ kUse h.km (elBits h.et), [(vKey vd, elBits h.et)], [], [], []⟩
  | .vmulImm h vd va _ =>
    ⟨[(vKey va, elBits h.et)] ++ kUse h.km (elBits h.et), [(vKey vd, elBits h.et)], [], [], []⟩
  | .vmulh h vd va vb =>
    ⟨[(vKey va, elBits h.et), (vKey vb, elBits h.et)] ++ kUse h.km (elBits h.et), [(vKey vd, elBits h.et)], [], [], []⟩
  | .vmulhImm h vd va _ =>
    ⟨[(vKey va, elBits h.et)] ++ kUse h.km (elBits h.et), [(vKey vd, elBits h.et)], [], [], []⟩
  | .vmad h vd va vb vc =>
    ⟨[(vKey va, elBits h.et), (vKey vb, elBits h.et), (vKey vc, elBits h.et)] ++ kUse h.km (elBits h.et), [(vKey vd, elBits h.et)], [], [], []⟩
  | .vmin h vd va vb =>
    ⟨[(vKey va, elBits h.et), (vKey vb, elBits h.et)] ++ kUse h.km (elBits h.et), [(vKey vd, elBits h.et)], [], [], []⟩
  | .vminImm h vd va _ =>
    ⟨[(vKey va, elBits h.et)] ++ kUse h.km (elBits h.et), [(vKey vd, elBits h.et)], [], [], []⟩
  | .vmax h vd va vb =>
    ⟨[(vKey va, elBits h.et), (vKey vb, elBits h.et)] ++ kUse h.km (elBits h.et), [(vKey vd, elBits h.et)], [], [], []⟩
  | .vmaxImm h vd va _ =>
    ⟨[(vKey va, elBits h.et)] ++ kUse h.km (elBits h.et), [(vKey vd, elBits h.et)], [], [], []⟩
  | .vand h vd va vb =>
    ⟨[(vKey va, elBits h.et), (vKey vb, elBits h.et)] ++ kUse h.km (elBits h.et), [(vKey vd, elBits h.et)], [], [], []⟩
  | .vandImm h vd va _ =>
    ⟨[(vKey va, elBits h.et)] ++ kUse h.km (elBits h.et), [(vKey vd, elBits h.et)], [], [], []⟩
  | .vor h vd va vb =>
    ⟨[(vKey va, elBits h.et), (vKey vb, elBits h.et)] ++ kUse h.km (elBits h.et), [(vKey vd, elBits h.et)], [], [], []⟩
  | .vorImm h vd va _ =>
    ⟨[(vKey va, elBits h.et)] ++ kUse h.km (elBits h.et), [(vKey vd, elBits h.et)], [], [], []⟩
  | .vxor h vd va vb =>
    ⟨[(vKey va, elBits h.et), (vKey vb, elBits h.et)] ++ kUse h.km (elBits h.et), [(vKey vd, elBits h.et)], [], [], []⟩
  | .vxorImm h vd va _ =>
    ⟨[(vKey va, elBits h.et)] ++ kUse h.km (elBits h.et), [(vKey vd, elBits h.et)], [], [], []⟩
  | .vsll h vd va vb =>
    ⟨[(vKey va, elBits h.et), (vKey vb, elBits h.et)] ++ kUse h.km (elBits h.et), [(vKey vd, elBits h.et)], [], [], []⟩
  | .vsllImm h vd va _ =>
    ⟨[(vKey va, elBits h.et)] ++ kUse h.km (elBits h.et), [(vKey vd, elBits h.et)], [], [], []⟩
  | .vsrl h vd va vb =>
    ⟨[(vKey va, elBits h.et), (vKey vb, elBits h.et)] ++ kUse h.km (elBits h.et), [(vKey vd, elBits h.et)], [], [], []⟩
  | .vsrlImm h vd va _ =>
    ⟨[(vKey va, elBits h.et)] ++ kUse h.km (elBits h.et), [(vKey vd, elBits h.et)], [], [], []⟩
  | .vsra h vd va vb =>
    ⟨[(vKey va, elBits h.et), (vKey vb, elBits h.et)] ++ kUse h.km (elBits h.et), [(vKey vd, elBits h.et)], [], [], []⟩
  | .vsraImm h vd va _ =>
    ⟨[(vKey va, elBits h.et)] ++ kUse h.km (elBits h.et), [(vKey vd, elBits h.et)], [], [], []⟩
  | .vabs h vd va =>
    ⟨[(vKey va, elBits h.et)] ++ kUse h.km (elBits h.et), [(vKey vd, elBits h.et)], [], [], []⟩
  | .vneg h vd va =>
    ⟨[(vKey va, elBits h.et)] ++ kUse h.km (elBits h.et), [(vKey vd, elBits h.et)], [], [], []⟩
  | .vfadd h vd va vb =>
    ⟨[(vKey va, elBits h.et), (vKey vb, elBits h.et)] ++ kUse h.km (elBits h.et), [(vKey vd, elBits h.et)], [], [], []⟩
  | .vfsub h vd va vb =>
    ⟨[(vKey va, elBits h.et), (vKey vb, elBits h.et)] ++ kUse h.km (elBits h.et), [(vKey vd, elBits h.et)], [], [], []⟩
  | .vfmul h vd va vb =>
    ⟨[(vKey va, elBits h.et), (vKey vb, elBits h.et)] ++ kUse h.km (elBits h.et), [(vKey vd, elBits h.et)], [], [], []⟩
  | .vfma h vd va vb vc =>
    ⟨[(vKey va, elBits h.et), (vKey vb, elBits h.et), (vKey vc, elBits h.et)] ++ kUse h.km (elBits h.et), [(vKey vd, elBits h.et)], [], [], []⟩
  | .vfnma h vd va vb vc =>
    ⟨[(vKey va, elBits h.et), (vKey vb, elBits h.et), (vKey vc, elBits h.et)] ++ kUse h.km (elBits h.et), [(vKey vd, elBits h.et)], [], [], []⟩
  | .vfmin h vd va vb =>
    ⟨[(vKey va, elBits h.et), (vKey vb, elBits h.et)] ++ kUse h.km (elBits h.et), [(vKey vd, elBits h.et)], [], [], []⟩
  | .vfmax h vd va vb =>
    ⟨[(vKey va, elBits h.et), (vKey vb, elBits h.et)] ++ kUse h.km (elBits h.et), [(vKey vd, elBits h.et)], [], [], []⟩
  | .vfabs h vd va =>
    ⟨[(vKey va, elBits h.et)] ++ kUse h.km (elBits h.et), [(vKey vd, elBits h.et)], [], [], []⟩
  | .vfneg h vd va =>
    ⟨[(vKey va, elBits h.et)] ++ kUse h.km (elBits h.et), [(vKey vd, elBits h.et)], [], [], []⟩
  | .vfscl h vd va vb _ =>
    ⟨[(vKey va, elBits h.et), (vKey vb, elBits h.et)] ++ kUse h.km (elBits h.et), [(vKey vd, elBits h.et)], [], [], []⟩
  | .vfrcp h vd va =>
    ⟨[(vKey va, elBits h.et)] ++ kUse h.km (elBits h.et), [(vKey vd, elBits h.et)], [], [], []⟩
  | .vfrsq h vd va =>
    ⟨[(vKey va, elBits h.et)] ++ kUse h.km (elBits h.et), [(vKey vd, elBits h.et)], [], [], []⟩
  | .vfexp2 h vd va =>
    ⟨[(vKey va, elBits h.et)] ++ kUse h.km (elBits h.et), [(vKey vd, elBits h.et)], [], [], []⟩
  | .vflog2 h vd va =>
    ⟨[(vKey va, elBits h.et)] ++ kUse h.km (elBits h.et), [(vKey vd, elBits h.et)], [], [], []⟩
  | .vcvt h vd va src _ _ =>
    ⟨[(vKey va, elBits src)] ++ kUse h.km (elBits h.et), [(vKey vd, elBits h.et)], [], [], []⟩
  | .vcvtx h vd va =>
    ⟨[(vKey va, 16)] ++ kUse h.km (elBits h.et), [(vKey vd, elBits h.et)], [], [], []⟩
  | .vmxup h vd va _ =>
    ⟨[(vKey va, elBits .mx4)] ++ kUse h.km (elBits h.et), [(vKey vd, elBits h.et)], [], [], []⟩
  | .vmxpk h vd va src _ =>
    ⟨[(vKey va, elBits src)] ++ kUse h.km (elBits h.et), [(vKey vd, elBits h.et)], [], [], []⟩
  | .vcmp h kd va vb _ =>
    ⟨[(vKey va, elBits h.et), (vKey vb, elBits h.et)] ++ kUse h.km (elBits h.et), kUse kd (elBits h.et), [], [], []⟩
  | .vfcmp h kd va vb _ =>
    ⟨[(vKey va, elBits h.et), (vKey vb, elBits h.et)] ++ kUse h.km (elBits h.et), kUse kd (elBits h.et), [], [], []⟩
  | .vwhile h kd gi gn _ =>
    ⟨kUse h.km (elBits h.et), kUse kd (elBits h.et), [], [gi, gn], []⟩
  | .kand h kd ka kb =>
    ⟨kUse ka (elBits h.et) ++ kUse kb (elBits h.et) ++ kUse h.km (elBits h.et), kUse kd (elBits h.et), [], [], []⟩
  | .kor h kd ka kb =>
    ⟨kUse ka (elBits h.et) ++ kUse kb (elBits h.et) ++ kUse h.km (elBits h.et), kUse kd (elBits h.et), [], [], []⟩
  | .kxor h kd ka kb =>
    ⟨kUse ka (elBits h.et) ++ kUse kb (elBits h.et) ++ kUse h.km (elBits h.et), kUse kd (elBits h.et), [], [], []⟩
  | .kandn h kd ka kb =>
    ⟨kUse ka (elBits h.et) ++ kUse kb (elBits h.et) ++ kUse h.km (elBits h.et), kUse kd (elBits h.et), [], [], []⟩
  | .knot h kd ka =>
    ⟨kUse ka (elBits h.et) ++ kUse h.km (elBits h.et), kUse kd (elBits h.et), [], [], []⟩
  | .kmov h kd ka =>
    ⟨kUse ka (elBits h.et) ++ kUse h.km (elBits h.et), kUse kd (elBits h.et), [], [], []⟩
  | .kpop h gd ka =>
    ⟨kUse ka (elBits h.et) ++ kUse h.km (elBits h.et), [], [], [], [gd]⟩
  | .kfirst h gd ka =>
    ⟨kUse ka (elBits h.et) ++ kUse h.km (elBits h.et), [], [], [], [gd]⟩
  | .vmxv h kd va =>
    ⟨[(vKey va, elBits h.et)] ++ kUse h.km (elBits h.et), kUse kd (elBits h.et), [], [], []⟩
  | .vmov h vd va =>
    ⟨[(vKey va, elBits h.et)] ++ kUse h.km (elBits h.et), [(vKey vd, elBits h.et)], [], [], []⟩
  | .vbcast h vd ga =>
    ⟨kUse h.km (elBits h.et), [(vKey vd, elBits h.et)], [], [ga], []⟩
  | .vbcastb h vd va src _ =>
    ⟨[(vKey va, elBits src)] ++ kUse h.km (elBits h.et), [(vKey vd, elBits h.et)], [], [], []⟩
  | .vgathr h vd va vb =>
    ⟨[(vKey va, elBits h.et), (vKey vb, elBits h.et)] ++ kUse h.km (elBits h.et), [(vKey vd, elBits h.et)], [], [], []⟩
  | .vperm h vd va vb =>
    ⟨[(vKey va, elBits h.et), (vKey vb, elBits h.et)] ++ kUse h.km (elBits h.et), [(vKey vd, elBits h.et)], [], [], []⟩
  | .vsldu h vd va vb _ =>
    ⟨[(vKey va, elBits h.et), (vKey vb, elBits h.et)] ++ kUse h.km (elBits h.et), [(vKey vd, elBits h.et)], [], [], []⟩
  | .vsldd h vd va vb _ =>
    ⟨[(vKey va, elBits h.et), (vKey vb, elBits h.et)] ++ kUse h.km (elBits h.et), [(vKey vd, elBits h.et)], [], [], []⟩
  | .vcmpr h vd va =>
    ⟨[(vKey va, elBits h.et)] ++ kUse h.km (elBits h.et), [(vKey vd, elBits h.et)], [], [], []⟩
  | .vexpd h vd va =>
    ⟨[(vKey va, elBits h.et)] ++ kUse h.km (elBits h.et), [(vKey vd, elBits h.et)], [], [], []⟩
  | .viota h vd _ =>
    ⟨kUse h.km (elBits h.et), [(vKey vd, elBits h.et)], [], [], []⟩
  | .vext _ et gd va gi =>
    ⟨[(vKey va, elBits et)], [], [], [gi], [gd]⟩
  | .vins _ et vd ga gi =>
    ⟨[], [(vKey vd, elBits et)], [], [ga, gi], []⟩
  | .vrsum h vd va =>
    ⟨[(vKey va, elBits h.et)] ++ kUse h.km (elBits h.et), [(vKey vd, elBits h.et)], [], [], []⟩
  | .vrmax h vd va =>
    ⟨[(vKey va, elBits h.et)] ++ kUse h.km (elBits h.et), [(vKey vd, elBits h.et)], [], [], []⟩
  | .vrmin h vd va =>
    ⟨[(vKey va, elBits h.et)] ++ kUse h.km (elBits h.et), [(vKey vd, elBits h.et)], [], [], []⟩
  | .vscan h vd va _ =>
    ⟨[(vKey va, elBits h.et)] ++ kUse h.km (elBits h.et), [(vKey vd, elBits h.et)], [], [], []⟩
  | .vfrsum h vd va =>
    ⟨[(vKey va, elBits h.et)] ++ kUse h.km (elBits h.et), [(vKey vd, elBits h.et)], [], [], []⟩
  | .vfrmax h vd va =>
    ⟨[(vKey va, elBits h.et)] ++ kUse h.km (elBits h.et), [(vKey vd, elBits h.et)], [], [], []⟩
  | .vfrmin h vd va =>
    ⟨[(vKey va, elBits h.et)] ++ kUse h.km (elBits h.et), [(vKey vd, elBits h.et)], [], [], []⟩
  | .vfscan h vd va _ =>
    ⟨[(vKey va, elBits h.et)] ++ kUse h.km (elBits h.et), [(vKey vd, elBits h.et)], [], [], []⟩
  | .vld h _ vd vb _ =>
    ⟨kUse h.km (elBits h.et), [(vKey vd, elBits h.et)], [], [vb], []⟩
  | .vst h _ vd vb _ =>
    ⟨[(vKey vd, elBits h.et)] ++ kUse h.km (elBits h.et), [], [], [vb], []⟩
  | .vlds h _ vd vb vc _ =>
    ⟨kUse h.km (elBits h.et), [(vKey vd, elBits h.et)], [], [vb, vc], []⟩
  | .vsts h _ vd vb vc _ =>
    ⟨[(vKey vd, elBits h.et)] ++ kUse h.km (elBits h.et), [], [], [vb, vc], []⟩
  | .vldx h _ iw vd va vb _ =>
    ⟨[(vKey va, elBits (idxTy iw))] ++ kUse h.km (elBits h.et), [(vKey vd, elBits h.et)], [], [vb], []⟩
  | .vstx h _ iw vd va vb _ =>
    ⟨[(vKey vd, elBits h.et), (vKey va, elBits (idxTy iw))] ++ kUse h.km (elBits h.et), [], [], [vb], []⟩
  | .vldff h _ vd vb _ =>
    ⟨kUse h.km (elBits h.et), [(vKey vd, elBits h.et), (ffeKey, 0)], [], [vb], []⟩
  | .vldffStrided h _ vd vb vc _ =>
    ⟨kUse h.km (elBits h.et), [(vKey vd, elBits h.et), (ffeKey, 0)], [], [vb, vc], []⟩
  | .vldffIndexed h _ iw vd va vb _ =>
    ⟨[(vKey va, elBits (idxTy iw))] ++ kUse h.km (elBits h.et), [(vKey vd, elBits h.et), (ffeKey, 0)], [], [vb], []⟩
  | .vamo h _ op iw ret vd va vb vc =>
    ⟨[(vKey va, elBits (idxTy iw)), (vKey vc, elBits h.et)] ++ kUse h.km (elBits h.et) ++ (if op = .cas then [(vKey vd, elBits h.et)] else []), if ret then [(vKey vd, elBits h.et)] else [], [], [vb], []⟩
  | .vamoo h _ op iw ret vd va vb vc =>
    ⟨[(vKey va, elBits (idxTy iw)), (vKey vc, elBits h.et)] ++ kUse h.km (elBits h.et) ++ (if op = .cas then [(vKey vd, elBits h.et)] else []), if ret then [(vKey vd, elBits h.et)] else [], [], [vb], []⟩
  | .vldgl h _ iw vd va vb =>
    ⟨[(vKey va, elBits (idxTy iw))] ++ kUse h.km (elBits h.et), [(vKey vd, elBits h.et)], [], [vb], []⟩
  | .vstsc h _ iw kd vd va vb =>
    ⟨[(vKey vd, elBits h.et), (vKey va, elBits (idxTy iw))] ++ kUse h.km (elBits h.et), kUse kd (elBits h.et), [], [vb], []⟩
  | .vsadd h _ iw vd va vb =>
    ⟨[(vKey vd, elBits h.et), (vKey va, elBits (idxTy iw))] ++ kUse h.km (elBits h.et), [], [], [vb], []⟩
  | .mzero _ acc =>
    ⟨[], [(accUse acc, 0)], [], [], []⟩
  | .mopa h acc va sl =>
    ⟨[(vKey va, elBits h.et), (latchUse sl, 0)] ++ kUse h.km (elBits h.et), [], [(accUse acc, 0)], [], []⟩
  | .mops h acc va sl =>
    ⟨[(vKey va, elBits h.et), (latchUse sl, 0)] ++ kUse h.km (elBits h.et), [], [(accUse acc, 0)], [], []⟩
  | .mread h acc va _ _ =>
    ⟨[(accUse acc, 0)] ++ kUse h.km (elBits h.et), [(vKey va, elBits h.et)], [], [], []⟩
  | .mwrite h acc va _ =>
    ⟨[(vKey va, elBits h.et)] ++ kUse h.km (elBits h.et), [(accUse acc, 0)], [], [], []⟩
  | .msaveAcc _ _ acc vc _ =>
    ⟨[(accUse acc, 0)], [], [], [vc], []⟩
  | .msaveLatch _ _ sl _ vc _ =>
    ⟨[(latchUse sl, 0)], [], [], [vc], []⟩
  | .mloadAcc _ _ acc vc _ =>
    ⟨[], [(accUse acc, 0)], [], [vc], []⟩
  | .mloadLatch _ _ sl _ vc _ =>
    ⟨[], [(latchUse sl, 0)], [], [vc], []⟩
  | .vsend h va _ _ =>
    ⟨[(vKey va, elBits h.et)] ++ kUse h.km (elBits h.et), [], [], [], []⟩
  | .vrecv h vd _ =>
    ⟨kUse h.km (elBits h.et), [(vKey vd, elBits h.et)], [], [], []⟩
  | _ => Use.none

/-- Two unions of uses. -/
def Use.or (a b : Use) : Use := ⟨a.r ++ b.r, a.w ++ b.w, a.m ++ b.m, a.gr ++ b.gr, a.gw ++ b.gw⟩

/-- The use of several words. -/
def usesOf (l : List Instr) : Use := l.foldl (fun u i => u.or (useOf i)) Use.none

/-- Two lists of registers share one. -/
def meets (a b : List (Nat × Nat)) : Bool := a.any (fun x => b.any (fun y => x.1 == y.1))

/-- A later word or convoy conflicts with an earlier one (R197); accumulations into one tile do not (R278). -/
def Use.conflicts (a b : Use) : Bool :=
  meets a.w b.r || meets a.w b.w || meets a.w b.m || meets a.r b.w || meets a.r b.m || meets a.m b.r || meets a.m b.w
    || a.gw.any (fun g => g != 0 && b.gw.contains g)

/-- The later of two accesses to one register reaches, in its group, bytes that the earlier has in a later one: its
elements are the wider, or one of the two has `.mx4` slots, whose rows end in bytes made zero (R91). A mask has bit `e`
for element `e` whatever its width: only the bits cleared at the end tell widths apart (R186). -/
def widens (a b : List (Nat × Nat)) : Bool :=
  a.any (fun x => b.any (fun y => x.1 == y.1 && (decide (x.2 < y.2) || (decide (x.1 < 32) && (x.2 == 18) != (y.2 == 18)))))

/-- The vector registers of a list. -/
def vecOnly (a : List (Nat × Nat)) : List (Nat × Nat) := a.filter (fun x => decide (x.1 < 32))

/-- Group order would not give member order: a later member reaches, in one of its groups, what an earlier one reads or
writes in a later group (R193). -/
def mixedWidths : List Use → Bool
  | [] => false
  | a :: l => l.any (fun b => widens (vecOnly a.w) b.r || widens a.w b.w || widens a.r b.w) || mixedWidths l

/-- First byte of a register that a group of elements of a width covers (R90, R108). -/
def groupStart (w g : Nat) : Nat := if w = 18 then 512 * (g / 14) + 36 * (g % 14) else 2 * w * g

/-- The end of those bytes. -/
def groupEnd (w g : Nat) : Nat := if w = 18 then groupStart w g + 36 else 2 * w * (g + 1)

/-- A matrix instruction (R278). -/
def isMatrix (i : Instr) : Bool :=
  match i with
  | .mzero _ _ => true
  | .mopa _ _ _ _ => true
  | .mops _ _ _ _ => true
  | .mread _ _ _ _ _ => true
  | .mwrite _ _ _ _ => true
  | .msaveAcc _ _ _ _ _ => true
  | .msaveLatch _ _ _ _ _ _ => true
  | .mloadAcc _ _ _ _ _ => true
  | .mloadLatch _ _ _ _ _ _ => true
  | _ => false

/-- The port a channel member names, true for VSEND. -/
def chanOf (i : Instr) : Option (Port × Bool) :=
  match i with
  | .vsend _ _ q _ => some (q, true)
  | .vrecv _ _ q => some (q, false)
  | _ => none

/-- The ordering code of a member: those of memory, MSAVE and MLOAD (R264, R288). -/
def ordOf (i : Instr) : Ord :=
  match i with
  | .msaveAcc _ ord _ _ _ => ord
  | .msaveLatch _ ord _ _ _ _ => ord
  | .mloadAcc _ ord _ _ _ => ord
  | .mloadLatch _ ord _ _ _ _ => ord
  | _ => match memOp i with
    | some o => o.ord
    | none => .relaxed

/-- A member that reads memory and no more. -/
def isLoad (i : Instr) : Bool :=
  match i with
  | .mloadAcc _ _ _ _ _ => true
  | .mloadLatch _ _ _ _ _ _ => true
  | _ => match memOp i with
    | some o => o.kind == .load || o.kind == .firstFault || o.kind == .linked
    | none => false

/-- A member that writes memory and returns nothing. -/
def isStore (i : Instr) : Bool :=
  match i with
  | .msaveAcc _ _ _ _ _ => true
  | .msaveLatch _ _ _ _ _ _ => true
  | _ => match memOp i with
    | some o => o.kind == .store
    | none => false

/-- A release (R368, R171). -/
def isRelease (i : Instr) : Bool :=
  (ordered (ordOf i) && !isLoad i) || (chanOf i).any (·.2)
    || (ordered (ordOf i) && (memOp i).any (fun o => o.kind == .linked))

/-- An acquire (R368, R171). -/
def isAcquire (i : Instr) : Bool :=
  (ordered (ordOf i) && !isStore i) || (chanOf i).any (fun x => !x.2)

/-- An ordering code of system scope, and the channel words: accesses at other packages are ordered too (R171, R363). -/
def farScope (i : Instr) : Bool := ordOf i == .system || (chanOf i).isSome

/-- A member that acts on memory or on a channel. -/
def actsOutside (i : Instr) : Bool := (memOp i).isSome || (chanOf i).isSome || isMatrix i && (isStore i || isLoad i)

/-- The compute member an instruction is, if it is one. -/
def memberOf (i : Instr) (c : VCtx) : Option Member :=
  match i with
  | .vpsn h kd va => some (memVpsn h kd va c)
  | .vpclr h vd => some (memVpclr h vd c)
  | .vadd h vd va vb => some (memVadd h vd va vb c)
  | .vaddImm h vd va imm => some (memVaddImm h vd va imm c)
  | .vsub h vd va vb => some (memVsub h vd va vb c)
  | .vsubImm h vd va imm => some (memVsubImm h vd va imm c)
  | .vadds h vd va vb => some (memVadds h vd va vb c)
  | .vaddsImm h vd va imm => some (memVaddsImm h vd va imm c)
  | .vsubs h vd va vb => some (memVsubs h vd va vb c)
  | .vsubsImm h vd va imm => some (memVsubsImm h vd va imm c)
  | .vmul h vd va vb => some (memVmul h vd va vb c)
  | .vmulImm h vd va imm => some (memVmulImm h vd va imm c)
  | .vmulh h vd va vb => some (memVmulh h vd va vb c)
  | .vmulhImm h vd va imm => some (memVmulhImm h vd va imm c)
  | .vmad h vd va vb vc => some (memVmad h vd va vb vc c)
  | .vmin h vd va vb => some (memVmin h vd va vb c)
  | .vminImm h vd va imm => some (memVminImm h vd va imm c)
  | .vmax h vd va vb => some (memVmax h vd va vb c)
  | .vmaxImm h vd va imm => some (memVmaxImm h vd va imm c)
  | .vand h vd va vb => some (memVand h vd va vb c)
  | .vandImm h vd va imm => some (memVandImm h vd va imm c)
  | .vor h vd va vb => some (memVor h vd va vb c)
  | .vorImm h vd va imm => some (memVorImm h vd va imm c)
  | .vxor h vd va vb => some (memVxor h vd va vb c)
  | .vxorImm h vd va imm => some (memVxorImm h vd va imm c)
  | .vsll h vd va vb => some (memVsll h vd va vb c)
  | .vsllImm h vd va imm => some (memVsllImm h vd va imm c)
  | .vsrl h vd va vb => some (memVsrl h vd va vb c)
  | .vsrlImm h vd va imm => some (memVsrlImm h vd va imm c)
  | .vsra h vd va vb => some (memVsra h vd va vb c)
  | .vsraImm h vd va imm => some (memVsraImm h vd va imm c)
  | .vabs h vd va => some (memVabs h vd va c)
  | .vneg h vd va => some (memVneg h vd va c)
  | .vfadd h vd va vb => some (memVfadd h vd va vb c)
  | .vfsub h vd va vb => some (memVfsub h vd va vb c)
  | .vfmul h vd va vb => some (memVfmul h vd va vb c)
  | .vfma h vd va vb vc => some (memVfma h vd va vb vc c)
  | .vfnma h vd va vb vc => some (memVfnma h vd va vb vc c)
  | .vfmin h vd va vb => some (memVfmin h vd va vb c)
  | .vfmax h vd va vb => some (memVfmax h vd va vb c)
  | .vfabs h vd va => some (memVfabs h vd va c)
  | .vfneg h vd va => some (memVfneg h vd va c)
  | .vfscl h vd va vb form => some (memVfscl h vd va vb form c)
  | .vfrcp h vd va => some (memVfrcp h vd va c)
  | .vfrsq h vd va => some (memVfrsq h vd va c)
  | .vfexp2 h vd va => some (memVfexp2 h vd va c)
  | .vflog2 h vd va => some (memVflog2 h vd va c)
  | .vcvt h vd va src sat rm => some (memVcvt h vd va src sat rm c)
  | .vcvtx h vd va => some (memVcvtx h vd va c)
  | .vmxup h vd va rm => some (memVmxup h vd va rm c)
  | .vmxpk h vd va src rm => some (memVmxpk h vd va src rm c)
  | .vcmp h kd va vb cond => some (memVcmp h kd va vb cond c)
  | .vfcmp h kd va vb cond => some (memVfcmp h kd va vb cond c)
  | .vwhile h kd gi gn uns => some (memVwhile h kd gi gn uns c)
  | .kand h kd ka kb => some (memKand h kd ka kb c)
  | .kor h kd ka kb => some (memKor h kd ka kb c)
  | .kxor h kd ka kb => some (memKxor h kd ka kb c)
  | .kandn h kd ka kb => some (memKandn h kd ka kb c)
  | .knot h kd ka => some (memKnot h kd ka c)
  | .kmov h kd ka => some (memKmov h kd ka c)
  | .kpop h gd ka => some (memKpop h gd ka c)
  | .kfirst h gd ka => some (memKfirst h gd ka c)
  | .vmxv h kd va => some (memVmxv h kd va c)
  | .vmov h vd va => some (memVmov h vd va c)
  | .vbcast h vd ga => some (memVbcast h vd ga c)
  | .vbcastb h vd va src log2B => some (memVbcastb h vd va src log2B c)
  | .vgathr h vd va vb => some (memVgathr h vd va vb c)
  | .vperm h vd va vb => some (memVperm h vd va vb c)
  | .vsldu h vd va vb n => some (memVsldu h vd va vb n c)
  | .vsldd h vd va vb n => some (memVsldd h vd va vb n c)
  | .vcmpr h vd va => some (memVcmpr h vd va c)
  | .vexpd h vd va => some (memVexpd h vd va c)
  | .viota h vd form => some (memViota h vd form c)
  | .vext _ et gd va gi => some (memVext et gd va gi c)
  | .vins _ et vd ga gi => some (memVins et vd ga gi c)
  | .vrsum h vd va => some (memVrsum h vd va c)
  | .vrmax h vd va => some (memVrmax h vd va c)
  | .vrmin h vd va => some (memVrmin h vd va c)
  | .vscan h vd va op => some (memVscan h vd va op c)
  | .vfrsum h vd va => some (memVfrsum h vd va c)
  | .vfrmax h vd va => some (memVfrmax h vd va c)
  | .vfrmin h vd va => some (memVfrmin h vd va c)
  | .vfscan h vd va op => some (memVfscan h vd va op c)
  | _ => none

/-- What a member writes of its struck group: everything, the units that differ poisoned (R202). Which of two differing
results a poisoned unit or a mask bit holds the spec leaves open: the value is the operation's own (DESIGN CHOICE, log 87)
(DEDUCED, log 29). -/
def Strike.written (x : Strike) (l : List VWrite) : List VWrite :=
  l.filterMap (fun w => match w with
    | .elem base size e y psn => some (.elem base size e y (psn || x.diff.contains e))
    | .slot base u y psn => some (.slot base u y (psn || x.diff.contains u))
    | .flags _ => none
    | w => some w)

/-- A member in encore mode whose two runs of a group differ (R202): a replay that agrees is counted; one that differs
too stops the convoy there, the differing units of the group poisoned, and a spanning member writes nothing (R200)
(DEDUCED, log 29). -/
def Strike.on (x : Strike) (m : Member) : Member :=
  { m with
    run := fun g p =>
      if !m.spanning && g != x.group then m.run g p
      else match m.run g p with
        | .error v => .error v
        | .ok (l, gw) =>
          if x.again then .error { cause := 0x42, addr := 0, info := 0, put := if m.spanning then [] else x.written l }
          else .ok (.replay :: l, gw) }

/-- The compute member that an instruction is as member `k` of a convoy, with the lane error that strikes it. -/
def struck (x : Option Strike) (k : Nat) (i : Instr) (c : VCtx) : Option Member :=
  (memberOf i c).map (fun m => match x with
    | some h => if h.member = k then h.on m else m
    | none => m)

/-- A spanning member (R194). -/
def isSpanning (i : Instr) (c : VCtx) : Bool :=
  match memberOf i c with
  | some m => m.spanning
  | none => false

end Sys2Proof.Machine
end

