-- ==== Sys2Proof/Machine/Signature.lean ====
section
/-!
DEFINITION. Fetching instruction words and checking block signatures (R53, R60, R70-R72, R189, R191, R416, R420).
-/

namespace Sys2Proof.Machine

/-! ## Crc16 (R72) -/

/-- `n` steps of the CRC on one byte already brought in. -/
def crcShift (c : BitVec 16) : Nat → BitVec 16
  | 0 => c
  | n + 1 => crcShift (if c.getLsbD 15 then (c <<< 1) ^^^ 0x1021 else c <<< 1) n

/-- Crc16 continued over bytes. -/
def crcBytes (c : BitVec 16) : List Byte → BitVec 16
  | [] => c
  | b :: bs => crcBytes (crcShift (c ^^^ (b.setWidth 16 <<< 8)) 8) bs

/-! ## Fetching -/

/-- The eight bytes of device memory that hold a fetched word, or the cause: bit 51 clear, the canonical form, the
translation, poison (R53, R306, R312, R420) (DEDUCED, log 81). -/
def State.fetchBlock (s : State) (p : Proc) (a : Word) : Except VStop Nat :=
  if !inDevice a then .error { cause := 0x22, addr := a, info := 0 }
  else match s.vectorPlace p a kFetch with
    | .error (cause, info) => .error { cause, addr := a, info }
    | .ok (.remote _ _ _) => .error { cause := 0x21, addr := a, info := transInfo 4 kFetch }
    | .ok (.phys pa) => match s.entryAt (pa / 8 * 8) with
      | none => .error { cause := 0x44, addr := a, info := 0 }
      | some x => .ok x

/-- A fetch as it touches memory: an error in the half-line is corrected or made poison, and counted (R302). -/
def State.touchFetch (s : State) (p : Proc) (a : Word) : State :=
  if s.memErrors.isEmpty then s
  else match s.vectorPlace p a kFetch with
    | .ok (.phys pa) => (s.physRead (pa / 8 * 8) 8).1
    | _ => s

/-- A scalar word at an address (R53) (DEDUCED, log 81). -/
def State.fetchScalar (s : State) (p : Proc) (a : Word) : Except VStop SWord :=
  match s.fetchBlock p a with
  | .error e => .error e
  | .ok x => .ok (BitVec.ofNat 32 (x / 2 ^ (8 * (a.toNat % 8))))

/-- A vector word at an address (R65). -/
def State.fetchVector (s : State) (p : Proc) (a : Word) : Except VStop VWord :=
  match s.fetchBlock p a with
  | .error e => .error e
  | .ok x => .ok (BitVec.ofNat 64 x)

/-- The operation code of a vector word (R65). -/
def vopOf (w : VWord) : Nat := w.toNat / 2 ^ 56
/-- The chain bit of a vector word. -/
def chainBit (w : VWord) : Bool := w.getLsbD 46
/-- VSTOP, VSIG and MRING, which no word chains to (R70). -/
def standsAlone (w : VWord) : Bool := vopOf w == 1 || vopOf w == 3 || vopOf w == 6
/-- A matrix word by its code (R66). -/
def matrixCode (w : VWord) : Bool := decide (0xC0 ≤ vopOf w) && decide (vopOf w ≤ 0xC6)

/-- The words of a convoy from an address up, at most `n`, and the fault that ended them early (R70). -/
def State.fetchConvoy (s : State) (p : Proc) (a : Word) : Nat → List VWord × Option VStop
  | 0 => ([], none)
  | n + 1 =>
    match s.fetchVector p a with
    | .error e => ([], some e)
    | .ok w =>
      if chainBit w then
        let (ws, e) := s.fetchConvoy p (a + 8) n
        (w :: ws, e)
      else ([w], none)

/-- A word reads or writes a vector register beyond the declared count (R60). -/
def beyondCount (nregs : Nat) (i : Instr) : Bool :=
  let u := useOf i
  (u.r ++ u.w).any (fun x => decide (x.1 < 24) && decide (nregs ≤ x.1))

/-- A spanning word by its fields, whatever decode cause it raises besides (R194, R210, R214). -/
def spanningWord (w : VWord) : Bool :=
  let f := VFields.ofWord w
  match f.vop.toNat with
  | 0x50 => f.vd == f.va && (match f.src, ETy.ofCode f.et with
    | some x, some t => decide (halfBytes x < halfBytes t)
    | _, _ => false)
  | 0x51 => f.vd == f.va
  | 0x52 => f.vd == f.va
  | 0x74 => f.et == 13
  | 0x79 => bitOf f.x22 0
  | v => [0x68, 0x69, 0x72, 0x73, 0x75, 0x76, 0x77, 0x78, 0x7A, 0x80, 0x81, 0x82, 0x83, 0x84, 0x85, 0x86, 0x87].contains v

/-- The cause of the word at position `k` of a convoy, or its instruction (R60, R70, R194, R278) (DEDUCED, log 32). -/
def wordCause (nregs : Nat) (k : Nat) (w : VWord) (next : Option VWord) : Except Cause Instr :=
  let joins := chainBit w && (k == 3 || standsAlone w || spanningWord w || (match next with
    | some v => standsAlone v || matrixCode w != matrixCode v
    | none => false))
  if joins then .error 0x01
  else match decodeVector w with
    | .error e => .error e
    | .ok i => if beyondCount nregs i then .error 0x07 else .ok i

/-- The members of a convoy, or the cause of the lowest faulting word (R60) (DEDUCED, log 32). -/
def decodeConvoy (nregs : Nat) (k : Nat) : List VWord → Except Cause (List Instr)
  | [] => .ok []
  | w :: ws => match wordCause nregs k w ws.head? with
    | .error e => .error e
    | .ok i => match decodeConvoy nregs (k + 1) ws with
      | .error e => .error e
      | .ok l => .ok (i :: l)

/-- The signature state of a block after the words of a convoy, and whether its end matches (R416). -/
def VSig.words (g : VSig) : List VWord → VSig × Bool
  | [] => (g, true)
  | w :: ws =>
    if !g.checking then (g, true)
    else if vopOf w = 3 then { g with want := w.setWidth 16, crc := 0xFFFF }.words ws
    else
      let g' := { g with crc := crcBytes g.crc (leBytes 8 w.toNat) }
      if vopOf w = 1 then (g', g'.crc == g'.want) else g'.words ws

/-! ## Scanning a block ahead (R190, R338, R357, R359) -/

/-- The instructions of a block from an address up, to its VSTOP or to a word that cannot be fetched or decoded
(DEDUCED, log 33). -/
def State.scanBlock (s : State) (p : Proc) (a : Word) : Nat → List Instr
  | 0 => []
  | n + 1 =>
    match s.fetchVector p a with
    | .error _ => []
    | .ok w =>
      if vopOf w = 1 then []
      else match decodeVector w with
        | .error _ => s.scanBlock p (a + 8) n
        | .ok i => i :: s.scanBlock p (a + 8) n

/-- Words scanned ahead at most (DESIGN CHOICE, log 76). -/
def scanLimit : Nat := 2 ^ 49

/-- The general registers the words of a block write, one for each word that writes one (R190) (DEDUCED, log 33). -/
def State.blockWrites (s : State) (p : Proc) (a : Word) : List Nat :=
  ((s.scanBlock p a scanLimit).flatMap (fun i => (useOf i).gw)).filterMap (fun g => if g = 0 then none else some g.toNat)

end Sys2Proof.Machine
end

