-- ==== Sys2Proof/Machine/Convoy.lean ====
section
/-!
DEFINITION. Convoys: carrying out their groups, stopping and restarting them, starting the next one of a process,
and retiring them (R189-R203, R209, R237, R265-R268, R278-R280, R339, R375).
-/

namespace Sys2Proof.Machine

/-! ## A convoy among its process's -/

/-- What the members of a convoy read besides the process (R189, R218, R277, R339). -/
def Proc.ctxOf (p : Proc) (cv : Convoy) : VCtx :=
  { g := cv.snap.g, lrows := p.geom.lrows
    heads := cv.snap.heads.map (Option.map (fun h => (p.geom.nregs + h.group) * p.geom.lrows))
    xtab0 := cv.xtab0, xtab1 := cv.xtab1, seed := cv.seed, grant := cv.snap.grant }

/-- A convoy of a process. -/
def Proc.convoy? (p : Proc) (cid : Nat) : Option Convoy := p.convoys.find? (fun c => c.id == cid)

/-- The process with a convoy changed. -/
def Proc.modConvoy (p : Proc) (cid : Nat) (f : Convoy → Convoy) : Proc :=
  { p with convoys := p.convoys.map (fun c => if c.id = cid then f c else c) }

/-- A new convoy of an entry. -/
def Proc.newConvoy (p : Proc) (id : Nat) (task : Bool) (addr : Word) (l : List Instr) (snap : Snap) : Convoy :=
  { id := p.nextId, entry := id, task, addr, members := l, snap, xtab0 := p.xtab0, xtab1 := p.xtab1, seed := p.srseed
    group := 0, member := 0, reqs := [], acks := [], farAcks := [], gw := [], ffe := [], begun := [], held := [], left := []
    parts := [], lines := [], sent := false, finished := false, stopped := false, matrix := l.any isMatrix, strike := none }

/-- Canonical groups a member acts on; 0 for a spanning member and for VNOP. -/
def memberGroups (i : Instr) (c : VCtx) : Nat :=
  match memberOf i c with
  | some m => if m.spanning then 0 else m.groups
  | none => match memOp i, i with
    | some o, _ => groupsOf o.h.et c.lrows
    | none, .vsend h _ _ _ => groupsOf h.et c.lrows
    | none, .vrecv h _ _ => groupsOf h.et c.lrows
    | none, _ => 0

/-- Groups of a convoy. -/
def convoyGroups (l : List Instr) (c : VCtx) : Nat := l.foldl (fun n i => max n (memberGroups i c)) 0

/-- The members that are not spanning, with their positions. -/
def localMembers (l : List Instr) (c : VCtx) : List (Nat × Instr) :=
  ((l.zipIdx.filter (fun x => !isSpanning x.1 c))).map (fun x => (x.2, x.1))

/-- The restart point counted in groups that TELEM shows for a spanning member: VEXT's own groups (R238). -/
def spanGroups (i : Instr) (c : VCtx) (n : Nat) : Nat :=
  match i with
  | .vext _ et _ _ _ => groupsOf et c.lrows
  | _ => n

/-! ## One group (R193, R200, R266) -/

/-- Stands for a port where a release waits until the members before it have acted and the scratchpad's stores are
performed. -/
def releasePort : Nat := 16

/-- Before a release member acts, what earlier members of its convoy do in the group is performed, the stores at other
packages too where its scope is the system (R171, R363, R368): the stage, and whether all of it is. One whose requests go
out at once (`sends`) waits for the scratchpad stores themselves. -/
def Stage.settle (st : Stage) (x : Here) (l : List Instr) (far sends : Bool) : Stage × Bool :=
  if !(l.take x.k).any actsOutside then (st, true)
  else if !st.stores.isEmpty then ({ st with emits := st.emits ++ st.stores, stores := [], wait := true }, false)
  else if st.wait || !x.acks.isEmpty || (far && !x.farAcks.isEmpty) || x.reqs.any (fun r => r.store && r.reply.isNone) then
    ({ st with wait := true }, false)
  else if sends then
    if (st.s.proc? x.pid).all (fun p => ((st.s.tile p.tile).pendingStores x.pid).isEmpty) then (st, true)
    else ({ st with wait := true, port := some (st.port.getD (releasePort, x.k)) }, false)
  else ({ st with s := st.s.flushAll x.pid }, true)

/-- A member that acts outside the register file. -/
def Stage.outside (st : Stage) (x : Here) (i : Instr) : Stage :=
  match memOp i, i with
  | some o, _ => st.memory x o
  | none, .vsend h va q tag => st.send x h va q tag
  | none, .vrecv h vd q => st.recv x h vd q
  | none, _ => st

/-- A member of a convoy that returns values to its register without a change at memory: loads and VRECV. -/
def takesOnly (i : Instr) : Bool := (memOp i).any (fun o => o.kind == .load || o.kind == .firstFault) || (chanOf i).any (fun x => !x.2)

/-- A member outside the register file that a lane error strikes in this group (R202, R327): its addresses and operands are
compared before anything is sent or entered, the values that a load or VRECV brings before they are written. -/
def Stage.struckOutside (st : Stage) (x : Here) (i : Instr) : Stage :=
  match x.strike with
  | none => st.outside x i
  | some h =>
    if h.member != x.k || h.group != x.g then st.outside x i
    else
      let st' := st.outside x i
      let new := st'.ws.drop st.ws.length
      if st'.stop.isSome || (new.isEmpty && (takesOnly i || !h.again)) then st'
      else if h.again then
        { st with stop := some { cause := 0x42, addr := 0, info := 0
                                 put := if takesOnly i then h.written (new.flatMap (·.writes)) else [] } }
      else { st' with ws := st.ws ++ new.map (fun e => { e with writes := .replay :: e.writes }) }

/-- One member's group on a stage. Members after one that stopped do nothing; a member that needs a result not yet
known waits, and so does one behind an acquire that waits. A stop at a group that the convoy has not come to is met when
it comes to it: groups that need that group's results (`needs`) are left until then (DEDUCED, log 17). -/
def Stage.member (st : Stage) (x0 : Here) (l : List Instr) (needs : Nat → Nat → List (Nat × Nat)) (at' : Nat × Nat × Instr) : Stage :=
  let (k, g, i) := at'
  let x := { x0 with k, g }
  let u := useOf i
  let dests := u.w.map (·.1)
  if st.stop.isSome || decide (memberGroups i x.c ≤ g) then st
  else if (needs k g).any st.dead.contains || (decide (x.base < g) && st.dead.any (fun d => d.1 == k && decide (d.2 ≤ g))) then
    { st with skip := if g ≤ x.base then st.skip ++ [(k, g)] else st.skip, dead := st.dead ++ [(k, g)] }
  else if (u.r ++ u.w).any (fun r => st.taint.contains r.1) then st.blocked dests
  else
    let st' := match struck x.strike k i x.c with
      | some m => match st.proc x with
        | none => st
        | some p => match m.run g p with
          | .error v => { st with stop := some v }
          | .ok (ws, gw) => { (st.put x ws) with gw := st.gw ++ gw }
      | none =>
        if st.wait && (l.take k).any isAcquire then st.blocked dests
        else if isRelease i then
          let (st, clear) := st.settle x l (farScope i) ((memOp i).any MemOp.atomic)
          if clear then st.struckOutside x i else st.blocked dests
        else st.struckOutside x i
    if st'.stop.isSome && decide (x.base < g) then { st with dead := st.dead ++ [(k, g)] }
    else { st' with done := st'.done ++ [(k, g)] }

/-- What an attempt at a group comes to. -/
inductive Attempt where
  /-- It waits, and nothing has changed. -/
  | idle
  /-- Requests have been sent. -/
  | sent (s : State)
  /-- Pages of these addresses are to be asked for. -/
  | misses (l : List Nat)
  /-- A cause stops the convoy here. -/
  | stop (v : VStop)
  /-- The members tried have completed their groups, but for those left until a stop is met. -/
  | passed (s : State) (done skip : List (Nat × Nat))

/-- Requests sent, and entered with the convoy. -/
def State.sendUnits (s : State) (pid cid : Nat) : List Emit → State
  | [] => s
  | e :: es =>
    match s.proc? pid with
    | none => s
    | some p =>
      let (id, s) := s.sendTo (.proc pid) p.tenant e.place e.kind p.eff
      let remote := match e.place with
        | .phys _ => false
        | .remote _ _ _ => true
      let r : UReq := { id, group := e.group, member := e.member, unit := e.unit, piece := e.piece, store := e.store, remote
                        reply := none }
      (s.modProc pid (fun p => p.modConvoy cid (fun c => { c with reqs := c.reqs ++ [r] }))).sendUnits pid cid es

/-- Group order does not give the convoy's member order (R193). -/
def Convoy.mixed (cv : Convoy) (c : VCtx) : Bool := mixedWidths ((localMembers cv.members c).map (fun ki => useOf ki.2))

/-- A request whose reply the convoy's group needs before it can be complete. -/
def UReq.awaited (r : UReq) (g : Nat) : Bool := r.reply.isNone && decide (r.group ≤ g) && !(r.store && !r.remote)

/-- Some reply is awaited; where widths mix, the groups carried out ahead are awaited too. -/
def Convoy.awaits (cv : Convoy) (c : VCtx) : Bool :=
  let ahead := cv.mixed c
  cv.reqs.any (fun r => r.awaited (if ahead then r.group else cv.group))

/-- A store of the group that failed at its target (R267). -/
def failedStore (c : VCtx) (p : Proc) (cv : Convoy) : Option VStop :=
  cv.reqs.findSome? (fun r =>
    match r.store && decide (r.group ≤ cv.group), r.reply.bind (·.cause), (cv.members[r.member]?).bind memOp with
    | true, some cause, some o => some (o.stopAt r.piece cause (o.addr c p r.piece) 0)
    | _, _, _ => none)

/-- Groups left behind: their requests dropped, their stores' acknowledgements still due. -/
def Convoy.drop (cv : Convoy) (done : UReq → Bool) : Convoy :=
  let due := cv.reqs.filter (fun r => done r && r.reply.isNone)
  { cv with
    reqs := cv.reqs.filter (fun r => !done r)
    acks := cv.acks ++ (due.filter (fun r => !r.remote)).map (·.id)
    farAcks := cv.farAcks ++ (due.filter (·.remote)).map (·.id) }

/-- The group of a member has been carried out. -/
def Convoy.did (cv : Convoy) (k g : Nat) : Bool :=
  (decide (g < cv.group) && !cv.left.contains (k, g)) || cv.held.any (fun e => e.member == k && e.group == g)

/-- Groups of earlier members that a group of member `k` reads results of, and that are still to be carried out (R193). -/
def Convoy.needs (cv : Convoy) (c : VCtx) (k g : Nat) : List (Nat × Nat) :=
  match cv.members[k]? with
  | none => []
  | some i => (cv.members.take k).zipIdx.flatMap (fun x =>
      ((List.range (memberGroups x.1 c)).filter (fun h => !cv.did x.2 h
        && (useOf x.1).w.any (fun a => (useOf i).r.any (fun b =>
          a.1 == b.1 && decide (a.1 < 32) && decide (groupStart a.2 h < groupEnd b.2 g))))).map (fun h => (x.2, h)))

/-- A member's group with what it needs, and what that needs, before it. -/
def Convoy.chain (cv : Convoy) (c : VCtx) : Nat → Nat × Nat → List (Nat × Nat)
  | 0, x => [x]
  | n + 1, x => (cv.needs c x.1 x.2).flatMap (cv.chain c n) ++ [x]

/-- The groups of members that take part in the convoy's present position: this group of each member, in member order; where
widths mix, those left before, and before each the groups of earlier members that it needs (R193). -/
def Convoy.turn (cv : Convoy) (c : VCtx) : List (Nat × Nat × Instr) :=
  let ms := (localMembers cv.members c).filter (fun ki => decide (cv.member ≤ ki.1))
  if cv.mixed c then
    let want := cv.left ++ (ms.filter (fun ki => !cv.did ki.1 cv.group)).map (fun ki => (ki.1, cv.group))
    ((want.flatMap (cv.chain c cv.members.length)).foldl (fun l x => if l.contains x then l else l ++ [x]) []).map
      (fun x => (x.1, x.2, cv.members.getD x.1 .vstop))
  else ms.map (fun ki => (ki.1, cv.group, ki.2))

/-- An attempt at groups of a convoy's members: on a copy of the state, kept only when all of them have passed. -/
def State.attempt (s : State) (pid : Nat) (cv : Convoy) (ms : List (Nat × Nat × Instr)) : Attempt × Option (Nat × Nat) :=
  match s.proc? pid with
  | none => (.idle, none)
  | some p =>
    let c := p.ctxOf cv
    let x : Here := { pid, c, strike := cv.strike, reqs := cv.reqs, acks := cv.acks, farAcks := cv.farAcks, held := cv.held
                      base := cv.group, g := cv.group, k := 0 }
    let st0 : Stage := { s, ffe := cv.ffe, begun := cv.begun, parts := cv.parts, lines := cv.lines }
    let st := ms.foldl (fun st m => st.member x cv.members (cv.needs c) m) st0
    let s0 := { s with picks := st.s.picks, draws := st.s.draws }
    let due := cv.awaits c
    if !st.pages.isEmpty then (.misses st.pages, none)
    else match st.stop with
    | some v =>
      let asks := st.emits.filter (·.pure)
      if !asks.isEmpty then (.sent (s0.sendUnits pid cv.id asks), none)
      else if due then (.idle, none)
      else (.stop v, none)
    | none =>
      if !st.emits.isEmpty then (.sent (s0.sendUnits pid cv.id st.emits), none)
      else if st.wait then (.idle, st.port)
      else match failedStore c p cv with
        | some v => (.stop v, none)
        | none =>
          if st.stores.isEmpty && due then (.idle, none)
          else
            let remote := st.stores.any (fun e => match e.place with
              | .phys _ => false
              | .remote _ _ _ => true)
            if remote then (.sent (s0.sendUnits pid cv.id st.stores), none)
            else
              let s' := (st.s.clearDenied p.tile).sendUnits pid cv.id st.stores
              (.passed (s'.modProc pid (fun p => p.modConvoy cv.id (fun c =>
                { c with gw := c.gw ++ st.gw, ffe := st.ffe, begun := st.begun, parts := st.parts, lines := st.lines
                         held := c.held ++ st.ws }))) st.done st.skip, none)

/-- The results held of groups below `g` shown by the registers, in member order; the others stay held (R193, R200). -/
def Proc.show (p : Proc) (cid g : Nat) : Proc :=
  match p.convoy? cid with
  | none => p
  | some cv =>
    (p.puts (heldWrites (cv.held.filter (fun e => decide (e.group < g))) 3)).modConvoy cid (fun cv =>
      { cv with held := cv.held.filter (fun e => decide (g ≤ e.group)) })

/-- A convoy's group left behind for the next; where widths mix, results stay held until the convoy ends or stops, and
groups that wait for a later stop are left (R193). -/
def Proc.passGroup (p : Proc) (cid : Nat) (done skip : List (Nat × Nat)) : Proc :=
  match p.convoy? cid with
  | none => p
  | some cv =>
    let mixed := cv.mixed (p.ctxOf cv)
    let p := p.modConvoy cid (fun cv =>
      { cv.drop (fun r => decide (r.group ≤ cv.group) || done.contains (r.member, r.group)) with
        group := cv.group + 1, member := 0, left := skip })
    if mixed then p else p.show cid (cv.group + 1)

/-! ## Groups of members that only compute (R193, R200) -/

/-- What a run of members over a copy of the process has come to: the copy, with every result as it would be were no
member to stop; the results of each member's groups; general registers; and the lowest stop. -/
structure Course where
  p : Proc
  ws : List Held
  gw : List (Nat × Word)
  hi : Nat
  stop : Option VStop

/-- Past a stop the copy alone goes on. -/
def Course.beyond (r : Course) (calm : Member) (g : Nat) : Nat → Course
  | 0 => r
  | n + 1 => match calm.run g r.p with
    | .error _ => r
    | .ok (ws, _) => Course.beyond { r with p := r.p.puts ws } calm (g + 1) n

/-- One member's groups from `g`, `n` of them. A stop at a group ends its results there, and those of every member at that
group; the copy goes on with what the group would give, for the members that read it. -/
def Course.groups (r : Course) (k : Nat) (m calm : Member) (g : Nat) : Nat → Course
  | 0 => r
  | n + 1 => match (if g < r.hi then m.run g r.p else calm.run g r.p) with
    | .error v => if g < r.hi then Course.beyond { r with hi := g, stop := some v } calm g (n + 1) else r
    | .ok (ws, w) =>
      Course.groups { r with p := r.p.puts ws, gw := r.gw ++ w, ws := r.ws ++ [{ member := k, group := g, writes := ws }] } k m
        calm (g + 1) n

/-- The members one after another, each on its groups from `lo` (DEDUCED, log 11). -/
def Course.members (r : Course) (c : VCtx) (strike : Option Strike) (lo : Nat) : List (Nat × Instr) → Course
  | [] => r
  | (k, i) :: ms => match struck strike k i c, memberOf i c with
    | some m, some calm => (r.groups k m calm lo (m.groups - lo)).members c strike lo ms
    | _, _ => r.members c strike lo ms

/-! ## Stopping (R200, R397) -/

/-- TCAUSE.ORIGIN of a convoy (R399). -/
def Convoy.origin (cv : Convoy) : Nat := if cv.task then 2 else if cv.matrix then 3 else 1

/-- A convoy stops with a cause at its group: the process takes the trap at its next scalar word (R397) (DEDUCED,
log 11). -/
def State.stopVectorAt (s : State) (pid origin : Nat) (v : VStop) (telem : Nat) : State :=
  let s := if v.put.isEmpty then s else s.modProc pid (·.puts v.put)
  match s.proc? pid with
  | none => s
  | some p => (s.clearDenied p.tile).takeTrap pid
      { cause := v.cause, origin, pc := p.trapPc, addr := v.addr, elem := BitVec.ofNat 64 telem, info := v.info }

/-- A convoy stops with a cause: the groups below its own are shown, and its requests are dropped, to be made again at
resumption (R200, R396, R412). -/
def State.stopConvoy (s : State) (pid : Nat) (cv : Convoy) (v : VStop) (telem : Nat) : State :=
  (s.modProc pid (fun p => (p.show cv.id cv.group).modConvoy cv.id (fun cv => cv.drop (fun _ => true)))).stopVectorAt pid
    cv.origin v telem

/-! ## Running a convoy -/

/-- A spanning member whole, then the convoy is finished (R194, R238). -/
def State.runSpanning (s : State) (pid cid : Nat) : State :=
  match s.proc? pid with
  | none => s
  | some p => match p.convoy? cid with
    | none => s
    | some cv =>
      let c := p.ctxOf cv
      match (cv.members.zipIdx.filter (fun x => isSpanning x.1 c)).head? with
      | none => s.setProc pid (p.modConvoy cid (fun c => { c with finished := true, sent := true }))
      | some (i, k) => match struck cv.strike k i c with
        | none => s
        | some m => match m.run 0 p with
          | .error v => s.stopConvoy pid cv v (64 * spanGroups i c cv.group)
          | .ok (ws, gw) =>
            s.setProc pid ((p.puts ws).modConvoy cid (fun c => { c with finished := true, sent := true, gw := c.gw ++ gw }))

/-- Loads of later groups asked for ahead of their turn, where the convoy's accesses are relaxed loads at addresses
that no member changes: up to the first group with a failing check; and whether those are all the accesses of the
convoy (R265, R266). -/
def State.aheadLoads (s : State) (p : Proc) (c : VCtx) (ms : List (Nat × Instr)) (g : Nat) : Nat → List Emit × Bool
  | 0 => ([], true)
  | n + 1 =>
    let plans := ms.filterMap (fun ki => (memOp ki.2).map (fun o => (ki.1, o, s.planGroup c p o g)))
    if plans.any (fun x => (x.2.1.firstFail x.2.2).isSome || !(s.unknown p (x.2.1.touched x.2.2)).isEmpty) then ([], false)
    else
      let pieces := plans.flatMap (fun x => x.2.2.flatMap (fun pl =>
        match pl.psn, pl.pieces with
        | false, .ok qs => qs.zipIdx.map (fun q => (x.1, pl.u, q))
        | _, _ => []))
      let here := pieces.filterMap (fun x => x.2.2.1.place.map (fun place =>
        { member := x.1, group := g, unit := x.2.1, piece := x.2.2.2, place, kind := ReqKind.read x.2.2.1.n, store := false
          pure := true }))
      let (l, all) := s.aheadLoads p c ms (g + 1) n
      (here ++ l, all && pieces.all (fun x => x.2.2.1.place.isSome))

/-- Every access of the convoy is a relaxed load whose index and mask no member writes. -/
def loadsOnly (l : List Instr) : Bool :=
  l.all (fun i => !actsOutside i || ((memOp i).any (fun o => o.kind == .load) && !ordered (ordOf i)
    && !meets ((useOf i).r) (l.flatMap (fun j => (useOf j).w))))

/-- Later groups' loads sent (R265); a convoy that reads the scratchpad too is not done with sending until it has. -/
def State.sendAhead (s : State) (pid cid : Nat) : State :=
  match s.proc? pid with
  | none => s
  | some p => match p.convoy? cid with
    | none => s
    | some cv =>
      let c := p.ctxOf cv
      if cv.sent || !loadsOnly cv.members || cv.mixed c then s
      else
        let ms := localMembers cv.members c
        let n := convoyGroups cv.members c - (cv.group + 1)
        let (l, all) := s.aheadLoads p c ms (cv.group + 1) n
        let all := all && (s.aheadLoads p c ms cv.group 1).2
        let have' := fun (e : Emit) => cv.reqs.any (fun r => r.member == e.member && r.group == e.group && r.unit == e.unit && r.piece == e.piece)
        (s.sendUnits pid cid (l.filter (fun e => !have' e))).modProc pid (fun p => p.modConvoy cid (fun c => { c with sent := all }))

/-- A wait at a port that an earlier member of the group uses too, or of a release: the members before the waiting one go
first. -/
def Convoy.before (_cv : Convoy) (ms : List (Nat × Nat × Instr)) (port : Option (Nat × Nat)) : Option Nat :=
  match port with
  | none => none
  | some (q, k) =>
    if ms.any (fun m => decide (m.1 < k) && (q == releasePort || (chanOf m.2.2).any (fun x => x.1.toNat == q))) then some k
    else none

/-- A convoy goes on until it waits, stops or has finished (DESIGN CHOICE, log 9) (DEDUCED, log 17). -/
def State.runConvoy (s : State) (pid cid : Nat) : Nat → State
  | 0 => s
  | fuel + 1 =>
    match s.proc? pid with
    | none => s
    | some p => match p.convoy? cid with
      | none => s
      | some cv =>
        let c := p.ctxOf cv
        if convoyGroups cv.members c ≤ cv.group then (s.setProc pid (p.show cid cv.group)).runSpanning pid cid
        else
          let ms := cv.turn c
          match s.attempt pid cv ms with
          | (.passed s' done skip, _) => (s'.modProc pid (·.passGroup cid done skip)).runConvoy pid cid fuel
          | (.sent s', _) => s'.sendAhead pid cid
          | (.misses l, _) => s.want p l
          | (.stop v, _) => s.stopConvoy pid cv v (64 * cv.group)
          | (.idle, port) => match cv.before ms port with
            | none => if port.any (fun q => q.1 == releasePort) then (s.flushAll pid).runConvoy pid cid fuel else s
            | some k => match s.attempt pid cv (ms.filter (fun m => decide (m.1 < k))) with
              | (.passed s' done _, _) => s'.modProc pid (fun p => p.modConvoy cid (fun cv =>
                  { cv.drop (fun r => done.contains (r.member, r.group)) with member := k })) |>.runConvoy pid cid fuel
              | _ => s

/-- Steps a convoy takes at most: every group of every member, and the steps past its members
(DESIGN CHOICE, log 76). -/
def Convoy.steps (cv : Convoy) (c : VCtx) : Nat := (convoyGroups cv.members c + 2) * (2 * cv.members.length + 1)

/-- The members of a convoy that only computes, run whole; a stop keeps of each the groups below it (R193, R200, R237)
(DEDUCED, log 17). -/
def State.runCompute (s : State) (pid cid : Nat) : State :=
  match s.proc? pid with
  | none => s
  | some p => match p.convoy? cid with
    | none => s
    | some cv =>
      let c := p.ctxOf cv
      let r := ({ p, ws := [], gw := [], hi := convoyGroups cv.members c, stop := none } : Course).members c cv.strike cv.group
        (localMembers cv.members c)
      let at' := fun (p : Proc) => p.modConvoy cid (fun c => { c with group := r.hi, gw := c.gw ++ r.gw })
      match r.stop with
      | some v =>
        (s.setProc pid (at' (p.puts (heldWrites (r.ws.filter (fun e => decide (e.group < r.hi))) 3)))).stopConvoy pid
          { cv with group := r.hi } v (64 * r.hi)
      | none => (s.setProc pid (at' r.p)).runSpanning pid cid

/-- A convoy carried on from where it stands. -/
def State.goConvoy (s : State) (pid cid : Nat) : State :=
  match s.proc? pid with
  | none => s
  | some p => match p.convoy? cid with
    | none => s
    | some cv => if cv.members.any actsOutside then s.runConvoy pid cid (cv.steps (p.ctxOf cv)) else s.runCompute pid cid

/-! ## Checks when a convoy would start (R164, R167, R271, R274, R280, R290, R293, R339, R344) -/

/-- The ring and position of a process in its network (R275). -/
def State.ringOf (s : State) (pid : Nat) : Option (List Nat) :=
  match s.proc? pid with
  | none => none
  | some p => match mget s.nets p.net with
    | none => none
    | some n => (n.rings.find? (fun r => r.members.contains pid)).map (·.members)

/-- The context of stream `j` with a record's number: the present one, or one that has ended (R333, R339). -/
def Proc.recorded (p : Proc) (j conf : Nat) : Option StreamCtx :=
  let t := vget p.streams j StreamCtx.init
  if t.conf = conf then some t else (p.closing.find? (fun x => x.1 == j && x.2.conf == conf)).map (·.2)

/-- The cause of a head code used as a source or as a destination (R339, R344); a strip that an SDRAIN has discarded is
bound no more (DEDUCED, log 39). -/
def Proc.headCause (p : Proc) (snap : Snap) (k : Nat) (reads : Bool) : Option Cause :=
  if k < 24 ∨ 32 ≤ k then none
  else match (snap.heads[k - 24]?).getD none with
    | none => some 0x62
    | some h => match p.recorded h.stream h.conf with
      | none => some 0x62
      | some t =>
        if h.load != reads || t.limit.any (fun n => decide (n ≤ h.strip)) then some 0x62
        else match t.deadFrom with
          | some d => if d ≤ h.strip then some 0x66 else none
          | none => none

/-- The address of a matrix member that reads or writes memory (R289). -/
def matAddrOf (c : VCtx) (i : Instr) : Option Word :=
  match i with
  | .msaveAcc _ _ _ vc disp => some (c.matAddr vc disp)
  | .mloadAcc _ _ _ vc disp => some (c.matAddr vc disp)
  | .msaveLatch _ _ _ _ vc disp => some (c.matAddr vc disp)
  | .mloadLatch _ _ _ _ vc disp => some (c.matAddr vc disp)
  | _ => none

/-- That address where it is no multiple of 64. -/
def badMatAddr (c : VCtx) (i : Instr) : Option Word := (matAddrOf c i).bind (fun t => if t.toNat % 64 = 0 then none else some t)

/-- What a convoy's members read besides the process, for a snapshot. -/
def Proc.ctxFor (p : Proc) (snap : Snap) : VCtx := p.ctxOf (p.newConvoy 0 false 0 [] snap)

/-- The cause of one member when its convoy would start. -/
def State.memberStartCause (s : State) (pid : Nat) (p : Proc) (snap : Snap) (i : Instr) : Option Cause :=
  let u := useOf i
  let head := ((u.r.filterMap (fun x => p.headCause snap x.1 true)) ++ (u.w.filterMap (fun x => p.headCause snap x.1 false))).head?
  let chan := match chanOf i with
    | none => none
    | some (q, sends) => match p.port q.toNat with
      | none => some 0x30
      | some (c, prod) =>
        if prod != sends then some 0x34
        else match s.chan? c with
          | some ch => if ch.wide then none else some 0x35
          | none => some 0x30
  let accs := (u.r ++ u.w ++ u.m).any (fun x => decide (64 ≤ x.1) && decide (x.1 < 68) && decide (p.desc.accs ≤ x.1 - 64))
  let latches := (u.r ++ u.w).any (fun x => decide (68 ≤ x.1) && decide (x.1 < 70))
  if accs then some 0x58
  else if latches && !p.claim then some 0x59
  else if (badMatAddr (p.ctxFor snap) i).isSome then some 0x08
  else match i with
    | .mring _ => match s.ringOf pid with
      | none => some 0x5A
      | some l => if l.any s.isRetired then some 0x5B else none
    | _ => match head with
      | some c => some c
      | none => chan

/-- The cause of the lowest member that has one. -/
def State.startCause (s : State) (pid : Nat) (p : Proc) (snap : Snap) (l : List Instr) : Option Cause :=
  l.findSome? (s.memberStartCause pid p snap)

/-- The stop of a cause met where the convoy would start: TADDR holds the address of a misaligned transfer (R289, R399). -/
def Proc.startStop (p : Proc) (snap : Snap) (l : List Instr) (cause : Cause) : VStop :=
  { cause, addr := if cause = 0x08 then (l.findSome? (badMatAddr (p.ctxFor snap))).getD 0 else 0, info := 0 }

/-! ## Readiness (R197, R278, R339, R359, R366-R368) -/

/-- A strip is there for the member that names it (R339). -/
def Proc.stripReady (p : Proc) (h : HeadRec) : Bool :=
  (p.recorded h.stream h.conf).any (fun t => t.strips.any (fun x => x.index == h.strip && x.available && !x.released))

/-- Every strip a convoy names is available, or will never be: then the convoy stops when it would start (R339, R344)
(DEDUCED, log 39). -/
def Proc.stripsReady (p : Proc) (snap : Snap) (l : List Instr) : Bool :=
  let u := usesOf l
  let ok := fun (reads : Bool) (x : Nat × Nat) =>
    if x.1 < 24 ∨ 32 ≤ x.1 then true
    else (p.headCause snap x.1 reads).isSome || (match (snap.heads[x.1 - 24]?).getD none with
      | some h => p.stripReady h
      | none => true)
  u.r.all (ok true) && u.w.all (ok false)

/-- What the body of a task uses. -/
def State.taskUse (s : State) (p : Proc) (t : Task) : Use := usesOf (s.scanBlock p t.body.addr 32)

/-- Bytes that a member can touch, as runs: none where the register of its indices is not known ahead. -/
def VCtx.reach (c : VCtx) (p : Proc) (known : VReg → Bool) (i : Instr) : Option (List (Nat × Nat)) :=
  match memOp i, i with
  | some o, _ =>
    let units := (List.range (o.range c.lrows)).map (fun u => ((o.addr c p u).toNat, o.z))
    match o.idx, o.stride with
    | some (va, _), _ => if known va then some units else none
    | none, some _ => some units
    | none, none => some [((o.addr c p 0).toNat, o.z * o.range c.lrows)]
  | none, .msaveAcc _ _ acc vc disp => some [((c.matAddr vc disp).toNat, (MTarget.tile acc.toNat).bytes)]
  | none, .mloadAcc _ _ acc vc disp => some [((c.matAddr vc disp).toNat, (MTarget.tile acc.toNat).bytes)]
  | none, .msaveLatch _ _ sl scale vc disp => some [((c.matAddr vc disp).toNat, (MTarget.latch sl.toNat scale).bytes)]
  | none, .mloadLatch _ _ sl scale vc disp => some [((c.matAddr vc disp).toNat, (MTarget.latch sl.toNat scale).bytes)]
  | none, _ => some []

/-- Two members may touch a common byte, or use one port. -/
def mayMeet (a b : Option (List (Nat × Nat))) (i j : Instr) : Bool :=
  (match a, b with
    | some l, some m => l.any (fun x => m.any (fun y => decide (x.1 < y.1 + y.2) && decide (y.1 < x.1 + x.2)))
    | none, some m => !m.isEmpty
    | some l, none => !l.isEmpty
    | none, none => true)
  || (match chanOf i, chanOf j with
    | some x, some y => x.1 == y.1
    | _, _ => false)

/-- A later convoy's accesses keep behind those of a task's iterations: the task has no acquire, no access to a byte of
theirs, and none at their ports. Indices in a register that the body writes, or in a head, are not known ahead (R359,
R367, R368) (DEDUCED, log 17). -/
def State.apart (s : State) (p : Proc) (t : Task) (snap : Snap) (l : List Instr) : Bool :=
  let ws := s.scanBlock p t.body.addr 32
  let steady := fun (ms : List Instr) (v : VReg) => ms.all (fun i => (useOf i).w.all (fun x => x.1 != v.toNat))
  !ws.any isAcquire && ws.all (fun i => l.all (fun j =>
    !mayMeet ((p.ctxFor t.body.snap).reach p (fun v => decide (v.toNat < 24) && steady ws v) i) ((p.ctxFor snap).reach p (steady l) j) i j))

/-- Nothing of the process's vector stores waits in a FIFO. -/
def Tile.vecDrained (t : Tile) (pid : Nat) : Bool := (t.pendingStores pid).all (fun e => !e.vec)

/-- A convoy of an entry may start: registers (R197, R359), pending snapshot registers (R189), strips (R339), and the
orders of acquires and releases and of accesses to common bytes (R367, R368). -/
def State.convoyReady (s : State) (pid : Nat) (p : Proc) (owner : Nat) (snap : Snap) (l : List Instr) : Bool :=
  let u := usesOf l
  let earlier := p.convoys
  let outside := l.any actsOutside
  let tasks := p.tasks.filter (fun t => decide (t.id < owner))
  earlier.all (fun c => !(usesOf c.members).conflicts u)
    && tasks.all (fun t => !(s.taskUse p t).conflicts u)
    && u.gr.all (fun g => snap.pendG.all (fun x => x.1 != g.toNat))
    && p.stripsReady snap l
    && (!outside || (earlier.all (fun c => (c.sent || !c.members.any actsOutside) && !c.members.any isAcquire)
      && tasks.all (fun t => s.apart p t snap l)))
    && (!l.any isRelease || (earlier.isEmpty && (s.tile p.tile).vecDrained pid
      && tasks.all (fun t => !(s.scanBlock p t.body.addr 32).any actsOutside)))
    && (!l.any isMatrix || decide ((s.tile p.tile).matrix.length < 4))

/-! ## Owners: queue entries and task bodies -/

/-- The entry a convoy comes from: of the queue, or the body of a task. -/
def Proc.ownerEntry (p : Proc) (id : Nat) (task : Bool) : Option Entry :=
  if task then (p.tasks.find? (fun t => t.id == id)).map (·.body) else p.queue.find? (fun e => e.id == id)

/-- The process with that entry changed. -/
def Proc.modOwner (p : Proc) (id : Nat) (task : Bool) (f : Entry → Entry) : Proc :=
  if task then { p with tasks := p.tasks.map (fun t => if t.id = id then { t with body := f t.body } else t) }
  else { p with queue := p.queue.map (fun e => if e.id = id then f e else e) }

/-- The process with a queue entry gone whose VSTOP and convoys have retired (R189). -/
def Proc.dropDone (p : Proc) (id : Nat) : Proc :=
  if p.convoys.any (fun c => !c.task && c.entry == id) then p
  else { p with queue := p.queue.filter (fun e => !(e.id == id && e.stopped)) }

/-- A convoy starts: a matrix convoy is passed to the matrix unit, any other streams its members (R197, R278). -/
def State.startConvoy (s : State) (pid id : Nat) (task : Bool) (addr : Word) (l : List Instr) (snap : Snap) : State :=
  match s.proc? pid with
  | none => s
  | some p =>
    let hit := match s.strike with
      | some (q, x) => if q = pid && snap.encore && !l.any isMatrix then some x else none
      | none => none
    let s := if hit.isSome then { s with strike := none } else s
    let cv := { p.newConvoy id task addr l snap with strike := hit }
    let s := s.setProc pid { p with convoys := p.convoys ++ [cv], nextId := p.nextId + 1 }
    if cv.matrix then s.modTile p.tile (fun t => { t with matrix := t.matrix ++ [(pid, cv.id)] })
    else s.goConvoy pid cv.id

/-! ## What the sequencer can do for a process -/

/-- The next convoy of an entry: its words and members, or the cause it stops with (R60, R191). -/
def State.nextConvoy (s : State) (p : Proc) (e : Entry) : Except VStop (List VWord × List Instr) :=
  let (ws, err) := s.fetchConvoy p e.vpc 4
  match ws.head? with
  | none => .error (err.getD { cause := 0x44, addr := e.vpc, info := 0 })
  | some w =>
    if e.sig.checking && e.vpc == e.addr && vopOf w != 3 then .error { cause := 0x11, addr := e.vpc, info := 0 }
    else match decodeConvoy p.geom.nregs 0 ws with
      | .error cause => .error { cause, addr := 0, info := 0 }
      | .ok l => match err with
        | some v => .error v
        | none => .ok (ws, l)

/-- The addresses of the words that a fetch of an entry's next convoy reads. -/
def State.convoyWords (s : State) (p : Proc) (e : Entry) : List Word :=
  let (ws, err) := s.fetchConvoy p e.vpc 4
  (List.range (ws.length + (if err.isSome then 1 else 0))).map (fun k => e.vpc + BitVec.ofNat 64 (8 * k))

/-- The entry whose convoys are to start next: the first whose VSTOP has not been reached (R189). -/
def Proc.currentEntry (p : Proc) : Option Entry := p.queue.find? (fun e => !e.stopped)

/-- A started convoy can go on. -/
def State.canResume (s : State) (pid : Nat) (p : Proc) (cv : Convoy) : Bool :=
  !cv.finished && !cv.stopped && !cv.matrix && !cv.awaits (p.ctxOf cv)
    && (match s.startCause pid p cv.snap cv.members with
      | some _ => true
      | none => p.stripsReady cv.snap cv.members
        && (match s.attempt pid cv (cv.turn (p.ctxOf cv)) with
          | (.idle, port) => (cv.before (cv.turn (p.ctxOf cv)) port).isSome || port.any (fun q => q.1 == releasePort)
          | (.misses l, _) => !s.wants p l
          | _ => true))

/-- An entry's next convoy can start, or stops where it would start; or pages of its words are to be asked for. -/
def State.canStart (s : State) (pid : Nat) (p : Proc) (e : Entry) : Bool :=
  !e.stopped &&
  (match s.unknown p (s.convoyWords p e) with
    | a :: l => !s.wants p (a :: l)
    | [] => match s.nextConvoy p e with
      | .error _ => true
      | .ok (_, [.mring sl]) => p.ringWait.isNone && s.convoyReady pid p e.id e.snap [.mring sl]
      | .ok (_, l) => s.convoyReady pid p e.id e.snap l)

/-- A fence entry's work is done: everything ahead has retired and been performed (R375). -/
def State.fenceDone (s : State) (pid : Nat) (p : Proc) (e : Entry) : Bool :=
  (match p.queue.head? with
    | some h => h.id == e.id
    | none => false)
    && p.tasks.all (fun t => decide (e.id < t.id)) && p.convoys.all (fun c => decide (e.id < c.entry))
    && (s.tile p.tile).vecDrained pid

/-- The moves open for a process. -/
def State.vmoves (s : State) (pid : Nat) (p : Proc) : List VMove :=
  let going := (p.convoys.filter (s.canResume pid p)).map (fun c => VMove.resume c.id)
  let stuck := p.convoys.any (fun c => !c.finished && !c.stopped && !c.matrix && (s.startCause pid p c.snap c.members).isSome)
  let bodies := ((p.tasks.filter (fun t => t.running && !stuck && s.canStart pid p t.body))).map (fun t => VMove.start t.id true)
  let block := match p.currentEntry with
    | none => []
    | some e => match e.kind with
      | .block => if !stuck && s.canStart pid p e then [VMove.start e.id false] else []
      | .fence => if s.fenceDone pid p e then [VMove.fence e.id] else []
      | .loop _ _ _ _ _ => []
  going ++ bodies ++ block

/-- The owner goes past the words of a convoy. -/
def Proc.pastWords (p : Proc) (id : Nat) (task : Bool) (n : Nat) (g : VSig) : Proc :=
  p.modOwner id task (fun e => { e with vpc := e.vpc + BitVec.ofNat 64 (8 * n), sig := g })

/-- The next convoy of an entry starts, its words fetched (R192, R197, R290), or stops where it would start. -/
def State.startFetched (s : State) (pid : Nat) (p : Proc) (e : Entry) (task : Bool) : State :=
  let origin := if task then 2 else 1
  match s.nextConvoy p e with
  | .error v => s.stopVectorAt pid origin v 0
  | .ok (ws, l) =>
    let (g, same) := e.sig.words ws
    if !same then s.stopVectorAt pid 1 { cause := 0x10, addr := e.addr, info := 0 } 0
    else match s.startCause pid p e.snap l with
      | some cause => s.stopVectorAt pid (if l.any isMatrix && !task then 3 else origin) (p.startStop e.snap l cause) 0
      | none => match l with
        | [.vstop] => s.setProc pid ((p.pastWords e.id task 1 g).modOwner e.id task (fun e => { e with stopped := true }) |>.dropDone e.id)
        | [.vsig _] => s.setProc pid (p.pastWords e.id task 1 g)
        | [.vnop _] => s.setProc pid (p.pastWords e.id task 1 g)
        | [.mring sl] => s.setProc pid { p with ringWait := some sl.toNat }
        | _ => (s.setProc pid (p.pastWords e.id task ws.length g)).startConvoy pid e.id task e.vpc l e.snap

/-- The next convoy of an entry, once the pages of its words are known (R314). -/
def State.startNext (s : State) (pid : Nat) (p : Proc) (e : Entry) (task : Bool) : State :=
  let words := s.convoyWords p e
  match s.unknown p words with
  | a :: l => s.want p (a :: l)
  | [] => (words.foldl (fun s a => s.touchFetch p a) s).startFetched pid p e task

/-- A convoy that has waited or been stopped goes on, unless a head or a port no longer serves it (R201, R344). -/
def State.resumeConvoy (s : State) (pid : Nat) (p : Proc) (cid : Nat) : State :=
  match p.convoy? cid with
  | none => s
  | some cv => match s.startCause pid p cv.snap cv.members with
    | some cause => s.stopConvoy pid cv (p.startStop cv.snap cv.members cause) (64 * cv.group)
    | none => s.goConvoy pid cid

/-- A move made. -/
def State.vmove (s : State) (pid : Nat) (m : VMove) : State :=
  match s.proc? pid with
  | none => s
  | some p => match m with
    | .resume cid => s.resumeConvoy pid p cid
    | .start id task => match p.ownerEntry id task with
      | none => s
      | some e => s.startNext pid p e task
    | .fence id => s.setProc pid { p with queue := p.queue.filter (fun e => e.id != id) }

/-- The process's words may issue, scalar or vector: its network runs, it is Ready or Parked, its slot runs no service
code, and no capture waits for it (R39, R44, R117, R396, R411). -/
def State.runs (s : State) (p : Proc) : Bool :=
  !p.frozen && !p.priv && (match p.st with
    | .ready => true
    | .parked _ => true
    | _ => false)
  && (match mget s.nets p.net with
    | some n => n.st == .running
    | none => false)

/-- What the sequencer of a tile could do, with the effective priority of each process. -/
def State.tileMoves (s : State) (tile : Nat) : List (Nat × Nat × VMove) :=
  s.procs.flatMap (fun x => if x.2.tile == tile && s.runs x.2 then (s.vmoves x.1 x.2).map (fun m => (x.2.eff, x.1, m)) else [])

/-- A move as the sequencer remembers it: by process, with the address of the convoy that would start. -/
def State.moveKey (s : State) (x : Nat × Nat × VMove) : Nat × VMove × Word :=
  (x.2.1, x.2.2, match x.2.2 with
    | .start id task => (((s.proc? x.2.1).bind (fun p => p.ownerEntry id task)).map (·.vpc)).getD 0
    | _ => 0)

/-- The moves of a tile by how long they have been ready: those remembered and still open, then those newly found. -/
def State.byAge (s : State) (tile : Nat) (l : List (Nat × Nat × VMove)) : List (List (Nat × VMove × Word)) :=
  let open' := l.map s.moveKey
  let kept := ((s.tile tile).asking.map (·.filter open'.contains)).filter (fun g => !g.isEmpty)
  let new := open'.filter (fun x => !kept.any (·.contains x))
  if new.isEmpty then kept else kept ++ [new]

/-- CONVOY_START (R197): the ready convoy of the process of highest effective priority starts or goes on; among
equals the one ready longest. Of those found ready at one time, any: their cycles are not told apart (DEDUCED, log 5). -/
def State.convoyStart (s : State) (tile : Nat) : State :=
  let l := s.tileMoves tile
  let top := l.foldl (fun m x => max m x.1) 0
  let best := (l.filter (fun x => x.1 == top)).map s.moveKey
  let ages := s.byAge tile l
  let s := s.modTile tile (fun t => { t with asking := ages })
  match (ages.map (·.filter best.contains)).find? (fun g => !g.isEmpty) with
  | none => s
  | some first =>
    let (k, s) := s.pick first.length
    match first[k]? with
    | none => s
    | some (pid, m, _) => s.vmove pid m

/-- CONVOY_START. -/
def execConvoyStart (tile : Nat) (s : State) : Res := .next (s.convoyStart tile)

/-! ## Retiring (R190, R199, R268) -/

/-- A snapshot told that a pending write has been made. -/
def Snap.delivered (n : Snap) (entry reg : Nat) (v : Word) (last : Bool) : Snap :=
  if n.pendG.contains (reg, entry) then
    { n with g := n.g.setIfInBounds reg v, pendG := if last then n.pendG.erase (reg, entry) else n.pendG }
  else n

/-- One general register written at retirement: the register, its pending mark, and later snapshots. A task's marks
stay until the task completes. -/
def Proc.deliver (p : Proc) (entry : Nat) (task : Bool) (reg : Nat) (v : Word) : Proc :=
  if reg = 0 then p
  else
    { p with
      g := p.g.setIfInBounds reg v
      pending := if task then p.pending else p.pending.erase (reg, entry)
      queue := p.queue.map (fun e => { e with snap := e.snap.delivered entry reg v (!task) })
      tasks := p.tasks.map (fun t => { t with body := { t.body with snap := t.body.snap.delivered entry reg v (!task) } }) }

/-- FFE at retirement: what the last VLDFF of the convoy reports (R268, R269). -/
def Convoy.ffeValue (cv : Convoy) (c : VCtx) : Option Nat :=
  (cv.members.zipIdx.filterMap (fun x => match memOp x.1 with
    | some o => if o.kind == .firstFault then
        some (((cv.ffe.find? (fun e => e.1 == x.2)).map (·.2)).getD (o.range c.lrows)) else none
    | none => none)).getLast?

/-- Reads lost in each bank, from `n`: free values (R199, R421) (DESIGN CHOICE, log 21). -/
def bankCounts (v : Vector (BitVec 32) 8) (draw : Nat) : Vector (BitVec 32) 8 :=
  Vector.ofFn (fun i => v[i] + Config.bankLosses draw i.val)

/-- A finished convoy retires: pending general registers and FFE are written, bank losses counted but for the matrix
unit, which has a read port of its own (R278); a block whose VSTOP has been reached leaves the queue with its last convoy. -/
def State.retireConvoy (s : State) (pid cid : Nat) : State :=
  match s.proc? pid with
  | none => s
  | some p => match p.convoy? cid with
    | none => s
    | some cv =>
      let p := cv.gw.foldl (fun p x => p.deliver cv.entry cv.task x.1 x.2) p
      let p := match cv.ffeValue (p.ctxOf cv) with
        | some f => { p with ffe := BitVec.ofNat 64 f }
        | none => p
      let p := { p with convoys := p.convoys.filter (fun c => c.id != cid)
                        vbcnt := if cv.matrix then p.vbcnt else bankCounts p.vbcnt s.draws }
      { (s.setProc pid (if cv.task then p else p.dropDone cv.entry)) with draws := s.draws + 1 }

/-- A convoy may retire. -/
def Convoy.retirable (cv : Convoy) : Bool :=
  cv.finished && !cv.stopped && cv.acks.isEmpty && cv.farAcks.isEmpty && cv.reqs.isEmpty

/-- CONVOY_RETIRE (R190). -/
def State.convoyRetire (s : State) (pid cid : Nat) : State :=
  match (s.proc? pid).bind (fun p => p.convoy? cid) with
  | none => s
  | some cv => if cv.retirable && !cv.matrix && cv.members.all (fun i => match i with
      | .mring _ => false
      | _ => true) then s.retireConvoy pid cid else s

/-- CONVOY_RETIRE. -/
def execConvoyRetire (pid cid : Nat) (s : State) : Res := .next (s.convoyRetire pid cid)

/-! ## Replies (R265, R267) -/

/-- The replies that have arrived for a convoy, taken; a load ahead of the convoy's group that failed is asked for again in
its turn (R266, R396). -/
def State.takeReplies (s : State) (pid cid : Nat) : State :=
  match (s.proc? pid).bind (fun p => p.convoy? cid) with
  | none => s
  | some cv =>
    let mine := fun (r : Reply) => cv.reqs.any (fun q => q.id == r.id) || cv.acks.contains r.id || cv.farAcks.contains r.id
    let got := s.replies.filter mine
    let cv' := { cv with
      reqs := (cv.reqs.map (fun q => match got.find? (fun r => r.id == q.id) with
        | some r => { q with reply := some r }
        | none => q)).filter (fun q => !(decide (cv.group < q.group) && (q.reply.bind (·.cause)).isSome))
      acks := cv.acks.filter (fun a => got.all (fun r => r.id != a))
      farAcks := cv.farAcks.filter (fun a => got.all (fun r => r.id != a)) }
    ({ s with replies := s.replies.filter (fun r => !mine r) }).modProc pid (fun p => p.modConvoy cid (fun _ => cv'))

/-- A begun group goes on as its replies come in, a stopped convoy's too; a failed reply stops a convoy that runs, and
the cause a stopped one meets is met again at resumption, where its accesses are made again (R396, R200, R412). -/
def State.finishBegun (s : State) (pid cid : Nat) : State :=
  match s.proc? pid with
  | none => s
  | some p => match p.convoy? cid with
    | none => s
    | some cv =>
      let c := p.ctxOf cv
      if cv.reqs.all (fun r => decide (cv.group < r.group)) && !cv.mixed c then s
      else match s.attempt pid cv (cv.turn c) with
        | (.passed s' done skip, _) => s'.modProc pid (·.passGroup cid done skip)
        | (.sent s', _) => s'
        | (.misses l, _) => s.want p l
        | (.stop v, _) =>
          if cv.stopped then s.modProc pid (fun p => p.modConvoy cid (fun cv => cv.drop (fun _ => true)))
          else if s.runs p then s.stopConvoy pid cv v (64 * cv.group)
          else s
        | _ => s

/-- VECTOR_MEMORY_REPLY (R265): replies reach a convoy; once its group has them all the group is written and the
convoy is up for arbitration again. -/
def State.vectorMemoryReply (s : State) (pid cid : Nat) : State :=
  let s := s.takeReplies pid cid
  match (s.proc? pid).bind (fun p => p.convoy? cid) with
  | none => s
  | some cv =>
    let waits := match s.proc? pid with
      | some p => cv.awaits (p.ctxOf cv)
      | none => false
    if cv.finished || cv.matrix || cv.reqs.isEmpty || waits then s else s.finishBegun pid cid

/-- VECTOR_MEMORY_REPLY. -/
def execVectorMemoryReply (pid cid : Nat) (s : State) : Res := .next (s.vectorMemoryReply pid cid)

/-! ## The matrix unit and the span ring (R278-R280, R291-R293) -/

/-- A matrix convoy stops at its member (R280). -/
def State.stopMatrix (s : State) (pid : Nat) (cv : Convoy) (v : VStop) : State :=
  let info := (v.info &&& 0xFF00000000) ||| BitVec.ofNat 64 cv.member
  s.stopConvoy pid cv { v with info } 0

/-- The member of a matrix convoy that is next, carried out as far as it goes (R280, R289). -/
def State.matrixMember (s : State) (pid : Nat) (p : Proc) (cv : Convoy) : State :=
  match cv.members[cv.member]? with
  | none => s.setProc pid (p.modConvoy cv.id (fun c => { c with finished := true, sent := true }))
  | some i =>
    let x : Here := { pid, c := p.ctxOf cv, reqs := cv.reqs, g := 0, k := cv.member }
    let s0 := if isRelease i then s.flushAll pid else s
    let st := ({ s := s0 } : Stage).matrix x i
    match st.stop with
    | some v => if st.pages.isEmpty then s.stopMatrix pid cv v else s.want p st.pages
    | none =>
      if !st.pages.isEmpty then s.want p st.pages
      else if !st.emits.isEmpty then s0.sendUnits pid cv.id st.emits
      else if st.wait then s
      else st.s.modProc pid (fun p => p.modConvoy cv.id (fun c =>
        let done := decide (c.members.length ≤ c.member + 1)
        { c with member := c.member + 1, reqs := [], finished := done, sent := done }))

/-- The oldest matrix convoy of a tile that is not stopped, with its process. -/
def State.matrixHead (s : State) (tile : Nat) : Option (Nat × Proc × Convoy) :=
  (s.tile tile).matrix.findSome? (fun x => match s.proc? x.1 with
    | none => none
    | some p => match p.convoy? x.2 with
      | none => none
      | some cv => if cv.stopped || !s.runs p then none else some (x.1, p, cv))

/-- MATRIX_MEMBER_START (R278-R280). -/
def State.matrixMemberStart (s : State) (tile : Nat) : State :=
  match s.matrixHead tile with
  | none => s
  | some (pid, p, cv) => if cv.finished then s else s.matrixMember pid p cv

/-- MATRIX_MEMBER_START. -/
def execMatrixMemberStart (tile : Nat) (s : State) : Res := .next (s.matrixMemberStart tile)

/-- MATRIX_CONVOY_RETIRE (R279). -/
def State.matrixConvoyRetire (s : State) (tile : Nat) : State :=
  match s.matrixHead tile with
  | none => s
  | some (pid, _, cv) =>
    if cv.retirable then
      (s.retireConvoy pid cv.id).modTile tile (fun t => { t with matrix := t.matrix.filter (fun x => x != (pid, cv.id)) })
    else s

/-- MATRIX_CONVOY_RETIRE. -/
def execMatrixConvoyRetire (tile : Nat) (s : State) : Res := .next (s.matrixConvoyRetire tile)

/-- The owner of the MRING a process waits with: its running tasks first, then its current entry. -/
def State.ringOwner (s : State) (p : Proc) : Option (Entry × Bool × BitVec 1) :=
  let cands := (p.tasks.filter (·.running)).map (fun t => (t.body, true)) ++
    (match p.currentEntry with
      | some e => [(e, false)]
      | none => [])
  cands.findSome? (fun x => match s.nextConvoy p x.1 with
    | .ok (_, [.mring sl]) => if p.ringWait = some sl.toNat then some (x.1, x.2, sl) else none
    | _ => none)

/-- The latch of a process: its bytes and the poison of their words, counted from the latch's start. -/
def Proc.latchOf (p : Proc) (sl : Nat) : Memory × NatSet :=
  ((memSlice p.latch (8192 * sl) 8192).map (fun c => (c.1 - 8192 * sl, c.2)),
    (p.latchPoison.filter (fun w => w / 1024 == sl)).map (· - 1024 * sl))

/-- The latch of a process replaced (DEDUCED, log 82). -/
def Proc.setLatch (p : Proc) (sl : Nat) (l : Memory × NatSet) : Proc :=
  { p with latch := l.1.foldr (fun c m => mset m (c.1 + 8192 * sl) c.2) (memClear p.latch (8192 * sl) 8192)
           latchPoison := l.2.foldr (fun w m => nsAdd m (w + 1024 * sl)) (p.latchPoison.filter (fun w => w / 1024 != sl)) }

/-- A member enters the round: past its MRING, with a convoy that waits for its last row, its latch the one of the
member before it (R291). -/
def State.enterRound (s : State) (sl : BitVec 1) (pid : Nat) (l : Memory × NatSet) : State :=
  match s.proc? pid with
  | none => s
  | some p => match s.ringOwner p with
    | none => s
    | some (e, task, _) =>
      let (g, _) := match s.nextConvoy p e with
        | .ok (ws, _) => e.sig.words ws
        | .error _ => (e.sig, true)
      let p := (p.pastWords e.id task 1 g).setLatch sl.toNat l
      let cv := { p.newConvoy e.id task e.vpc [.mring sl] e.snap with finished := true, sent := true }
      s.setProc pid { p with
        convoys := p.convoys ++ [cv], nextId := p.nextId + 1, ringWait := none
        rounds := if sl = 0 then (p.rounds.1 + 1, p.rounds.2) else (p.rounds.1, p.rounds.2 + 1) }

/-- The rings of every network, in order. -/
def State.rings (s : State) : List (List Nat) := s.nets.flatMap (fun n => n.2.rings.map (·.members))

/-- MRING_ROUND_BEGIN (R291, R292): once every member waits with the same latch, each takes the latch of the member
before it, as it stood. -/
def State.ringBegin (s : State) (ring : Nat) (sl : BitVec 1) : State :=
  match s.rings[ring]? with
  | none => s
  | some l =>
    let ready := l.all (fun pid => match s.proc? pid with
      | some p => p.ringWait == some sl.toNat && s.runs p && (s.ringOwner p).isSome
      | none => false)
    if !ready then s
    else
      let old := l.map (fun pid => match s.proc? pid with
        | some p => p.latchOf sl.toNat
        | none => ([], []))
      let prev := match old.getLast? with
        | some x => x :: old.dropLast
        | none => []
      (l.zip prev).foldl (fun s x => s.enterRound sl x.1 x.2) s

/-- MRING_ROUND_BEGIN (DEDUCED, log 30). -/
def execMringRoundBegin (ring : Nat) (sl : BitVec 1) (s : State) : Res := .next (s.ringBegin ring sl)

/-- MRING_ROUND_END (R292): the member's MRING retires. -/
def State.ringEnd (s : State) (pid : Nat) (sl : BitVec 1) : State :=
  match s.proc? pid with
  | none => s
  | some p => match p.convoys.find? (fun c => c.members == [.mring sl]) with
    | none => s
    | some cv => if cv.stopped then s else s.retireConvoy pid cv.id

/-- MRING_ROUND_END (DEDUCED, log 30). -/
def execMringRoundEnd (pid : Nat) (sl : BitVec 1) (s : State) : Res := .next (s.ringEnd pid sl)

/-- A retired member of a ring: every MRING of the ring that waits, waits no more, and meets cause 0x5B when it would
start again (R293). -/
def State.releaseRing (s : State) (pid : Nat) : State :=
  match s.ringOf pid with
  | none => s
  | some l => l.foldl (fun s q => s.modProc q (fun p => { p with ringWait := none })) s

end Sys2Proof.Machine
end

