-- ==== Sys2Proof/Machine/StreamRec.lean ====
section
/-!
DEFINITION. The fields of a stream record (R334), strips and heads (R337, R339), and the snapshot an entry of the
block queue takes (R189, R277, R339, R419).
-/

namespace Sys2Proof.Machine

/-! ## Fields of the record (R334) -/

/-- COUNT, N of R336. -/
def StreamCtx.count (t : StreamCtx) : Nat := t.ctrl.toNat / 2 ^ 29
/-- VI. -/
def StreamCtx.vi (t : StreamCtx) : Nat := t.ctrl.toNat / 2 ^ 24 % 32
/-- ET as a code. -/
def StreamCtx.etCode (t : StreamCtx) : Nat := t.ctrl.toNat / 2 ^ 20 % 16
/-- ET. -/
def StreamCtx.et (t : StreamCtx) : ETy := (ETy.ofCode (BitVec.ofNat 4 t.etCode)).getD .i8
/-- LAYOUT. -/
def StreamCtx.layout (t : StreamCtx) : Nat := t.ctrl.toNat / 2 ^ 17 % 8
/-- MODE. -/
def StreamCtx.modeCode (t : StreamCtx) : Nat := t.ctrl.toNat / 2 ^ 15 % 4
/-- HEAD. -/
def StreamCtx.head (t : StreamCtx) : Nat := t.ctrl.toNat / 2 ^ 12 % 8
/-- F. -/
def StreamCtx.fields (t : StreamCtx) : Nat := t.ctrl.toNat / 2 ^ 8 % 16
/-- G0. -/
def StreamCtx.g0 (t : StreamCtx) : Nat := t.ctrl.toNat / 2 ^ 5 % 8
/-- DEPTH. -/
def StreamCtx.depth (t : StreamCtx) : Nat := t.ctrl.toNat / 2 % 16
/-- PERM. -/
def StreamCtx.permBit (t : StreamCtx) : Bool := t.ctrl.getLsbD 0
/-- DEN. -/
def StreamCtx.den (t : StreamCtx) : Bool := t.bits.getLsbD 17
/-- SEN. -/
def StreamCtx.sen (t : StreamCtx) : Bool := t.bits.getLsbD 16
/-- DBIT. -/
def StreamCtx.dbit (t : StreamCtx) : Nat := t.bits.toNat / 2 ^ 8 % 256
/-- SBIT. -/
def StreamCtx.sbit (t : StreamCtx) : Nat := t.bits.toNat % 256
/-- NH, the number of heads (R335). -/
def StreamCtx.heads (t : StreamCtx) : Nat := max t.fields 1
/-- Z of R335. -/
def StreamCtx.z (t : StreamCtx) : Nat := etSize t.et

/-- Bound, in the scalar view (R333). -/
def StreamCtx.bound (t : StreamCtx) : Bool :=
  match t.mode with
  | .load => true
  | .store => true
  | _ => false

/-- S, the elements of a strip (R337). -/
def StreamCtx.stripLen (t : StreamCtx) : Nat := if t.et = .mx4 then 896 * t.lrows else 512 * t.lrows / t.z

/-- Strips of the transfer (R337); none where a group has no rows. -/
def StreamCtx.stripCount (t : StreamCtx) : Nat :=
  if t.stripLen = 0 then 0 else (t.count + t.stripLen - 1) / t.stripLen

/-- The buffer group of strip `s` of field `f` (R337). -/
def StreamCtx.groupOf (t : StreamCtx) (f s : Nat) : Nat := t.g0 + f * t.depth + (if t.depth = 0 then 0 else s % t.depth)

/-! ## Heads and snapshots (R189, R339) -/

/-- A stream of a process. -/
def Proc.stream (p : Proc) (j : Nat) : StreamCtx := vget p.streams j StreamCtx.init

/-- The process with a stream changed. -/
def Proc.modStream (p : Proc) (j : Nat) (f : StreamCtx → StreamCtx) : Proc := { p with streams := vmod p.streams j f }

/-- The context the engine serves for stream `j`: the oldest transfer that has ended for the scalar stream and that it
has not finished, else the present record (R333, R341) (DEDUCED, log 35). -/
def Proc.live (p : Proc) (j : Nat) : StreamCtx := ((p.closing.find? (fun x => x.1 == j)).map (·.2)).getD (p.stream j)

/-- The first ended transfer of a stream changed. -/
def modEnded (j : Nat) (f : StreamCtx → StreamCtx) : List (Nat × StreamCtx) → List (Nat × StreamCtx)
  | [] => []
  | x :: xs => if x.1 = j then (j, f x.2) :: xs else x :: modEnded j f xs

/-- The process with that context changed. -/
def Proc.modLive (p : Proc) (j : Nat) (f : StreamCtx → StreamCtx) : Proc :=
  if p.closing.any (fun x => x.1 == j) then { p with closing := modEnded j f p.closing } else p.modStream j f

/-- The binding of head `h` by stream `j`, whose context is `t`, at strip `s`. -/
def StreamCtx.headRec (t : StreamCtx) (j h s : Nat) : HeadRec :=
  { stream := j, strip := s, load := t.modeCode == 1, conf := t.conf, group := t.groupOf (h - t.head) s }

/-- The stream bound to a head. -/
def Proc.headStream (p : Proc) (h : Nat) : Option Nat :=
  (List.range 8).find? (fun j => (p.stream j).bound && decide ((p.stream j).head ≤ h)
    && decide (h < (p.stream j).head + (p.stream j).heads))

/-- Binding and current strip of every head (R339). -/
def Proc.headsNow (p : Proc) : List (Option HeadRec) :=
  (List.range 8).map (fun h => (p.headStream h).map (fun j => (p.stream j).headRec j h (p.stream j).steps))

/-- The snapshot of an entry (R189, R277, R339, R419). -/
def Proc.snapNow (p : Proc) : Snap :=
  { g := p.g, pendG := p.pending, grant := p.grant, heads := p.headsNow, encore := p.encoreEn }

/-! ## A vector word alone -/

/-- A vector word as a convoy of one member of the current process, which starts now with a snapshot of its
registers (R70, R189) (DESIGN CHOICE, log 9). -/
def State.runVector (s : State) (i : Instr) : Res :=
  s.withCur fun p =>
    let snap := p.snapNow
    let owner := (p.currentEntry.map (·.id)).getD p.nextId
    if beyondCount p.geom.nregs i then s.stopVectorAt s.cur 1 { cause := 0x07, addr := 0, info := 0 } 0
    else match s.startCause s.cur p snap [i] with
      | some cause => s.stopVectorAt s.cur (if isMatrix i then 3 else 1) (p.startStop snap [i] cause) 0
      | none => s.startConvoy s.cur owner false p.pc [i] snap

/-- VSTOP (R192): the current block ends. -/
def execVstop (s : State) : Res :=
  s.withCur fun p => match p.currentEntry with
    | none => s
    | some e => s.setCur ((p.modOwner e.id false (fun e => { e with stopped := true })).dropDone e.id)

/-- VNOP (R192): no effect on any state. -/
def execVnop (_ch : Bool) (s : State) : Res := s.withCur fun _ => s

/-- VSIG (R415, R416): with checking on, the block's CRC starts; no effect otherwise. -/
def execVsig (sig : BitVec 16) (s : State) : Res :=
  s.withCur fun p => match p.currentEntry with
    | none => s
    | some e => if e.sig.checking then
        s.setCur (p.modOwner e.id false (fun e => { e with sig := { e.sig with want := sig, crc := 0xFFFF } })) else s

/-- MRING (R290-R293): the process waits for the round of its ring. -/
def execMring (sl : BitVec 1) (s : State) : Res :=
  s.withCur fun p => match s.startCause s.cur p p.snapNow [.mring sl] with
    | some cause => s.stopVectorAt s.cur 1 { cause, addr := 0, info := 0 } 0
    | none => s.setCur { p with ringWait := some sl.toNat }

end Sys2Proof.Machine
end

