-- ==== Sys2Proof/Machine/VWords.lean ====
section
/-!
DEFINITION. The vector words (R66): each is carried out as a convoy of one member of the current process. What its
member does is in VCompute, VMem and Matrix.
-/

namespace Sys2Proof.Machine

/-- VPSN (R203). -/
def execVpsn (h : VHdr) (kd : KReg) (va : VReg) (s : State) : Res :=
  s.runVector (.vpsn h kd va)

/-- VPCLR (R203). -/
def execVpclr (h : VHdr) (vd : VReg) (s : State) : Res :=
  s.runVector (.vpclr h vd)

/-- VADD (R211). -/
def execVadd (h : VHdr) (vd va vb : VReg) (s : State) : Res :=
  s.runVector (.vadd h vd va vb)

/-- VADD, immediate form (R206). -/
def execVaddImm (h : VHdr) (vd va : VReg) (imm : BitVec 16) (s : State) : Res :=
  s.runVector (.vaddImm h vd va imm)

/-- VSUB (R211). -/
def execVsub (h : VHdr) (vd va vb : VReg) (s : State) : Res :=
  s.runVector (.vsub h vd va vb)

/-- VSUB, immediate form (R206). -/
def execVsubImm (h : VHdr) (vd va : VReg) (imm : BitVec 16) (s : State) : Res :=
  s.runVector (.vsubImm h vd va imm)

/-- VADDS (R211). -/
def execVadds (h : VHdr) (vd va vb : VReg) (s : State) : Res :=
  s.runVector (.vadds h vd va vb)

/-- VADDS, immediate form (R206). -/
def execVaddsImm (h : VHdr) (vd va : VReg) (imm : BitVec 16) (s : State) : Res :=
  s.runVector (.vaddsImm h vd va imm)

/-- VSUBS (R211). -/
def execVsubs (h : VHdr) (vd va vb : VReg) (s : State) : Res :=
  s.runVector (.vsubs h vd va vb)

/-- VSUBS, immediate form (R206). -/
def execVsubsImm (h : VHdr) (vd va : VReg) (imm : BitVec 16) (s : State) : Res :=
  s.runVector (.vsubsImm h vd va imm)

/-- VMUL (R211). -/
def execVmul (h : VHdr) (vd va vb : VReg) (s : State) : Res :=
  s.runVector (.vmul h vd va vb)

/-- VMUL, immediate form (R206). -/
def execVmulImm (h : VHdr) (vd va : VReg) (imm : BitVec 16) (s : State) : Res :=
  s.runVector (.vmulImm h vd va imm)

/-- VMULH (R211). -/
def execVmulh (h : VHdr) (vd va vb : VReg) (s : State) : Res :=
  s.runVector (.vmulh h vd va vb)

/-- VMULH, immediate form (R206). -/
def execVmulhImm (h : VHdr) (vd va : VReg) (imm : BitVec 16) (s : State) : Res :=
  s.runVector (.vmulhImm h vd va imm)

/-- VMAD (R211). -/
def execVmad (h : VHdr) (vd va vb vc : VReg) (s : State) : Res :=
  s.runVector (.vmad h vd va vb vc)

/-- VMIN (R211). -/
def execVmin (h : VHdr) (vd va vb : VReg) (s : State) : Res :=
  s.runVector (.vmin h vd va vb)

/-- VMIN, immediate form (R206). -/
def execVminImm (h : VHdr) (vd va : VReg) (imm : BitVec 16) (s : State) : Res :=
  s.runVector (.vminImm h vd va imm)

/-- VMAX (R211). -/
def execVmax (h : VHdr) (vd va vb : VReg) (s : State) : Res :=
  s.runVector (.vmax h vd va vb)

/-- VMAX, immediate form (R206). -/
def execVmaxImm (h : VHdr) (vd va : VReg) (imm : BitVec 16) (s : State) : Res :=
  s.runVector (.vmaxImm h vd va imm)

/-- VAND (R211). -/
def execVand (h : VHdr) (vd va vb : VReg) (s : State) : Res :=
  s.runVector (.vand h vd va vb)

/-- VAND, immediate form (R206). -/
def execVandImm (h : VHdr) (vd va : VReg) (imm : BitVec 16) (s : State) : Res :=
  s.runVector (.vandImm h vd va imm)

/-- VOR (R211). -/
def execVor (h : VHdr) (vd va vb : VReg) (s : State) : Res :=
  s.runVector (.vor h vd va vb)

/-- VOR, immediate form (R206). -/
def execVorImm (h : VHdr) (vd va : VReg) (imm : BitVec 16) (s : State) : Res :=
  s.runVector (.vorImm h vd va imm)

/-- VXOR (R211). -/
def execVxor (h : VHdr) (vd va vb : VReg) (s : State) : Res :=
  s.runVector (.vxor h vd va vb)

/-- VXOR, immediate form (R206). -/
def execVxorImm (h : VHdr) (vd va : VReg) (imm : BitVec 16) (s : State) : Res :=
  s.runVector (.vxorImm h vd va imm)

/-- VSLL (R211). -/
def execVsll (h : VHdr) (vd va vb : VReg) (s : State) : Res :=
  s.runVector (.vsll h vd va vb)

/-- VSLL, immediate form (R206). -/
def execVsllImm (h : VHdr) (vd va : VReg) (imm : BitVec 16) (s : State) : Res :=
  s.runVector (.vsllImm h vd va imm)

/-- VSRL (R211). -/
def execVsrl (h : VHdr) (vd va vb : VReg) (s : State) : Res :=
  s.runVector (.vsrl h vd va vb)

/-- VSRL, immediate form (R206). -/
def execVsrlImm (h : VHdr) (vd va : VReg) (imm : BitVec 16) (s : State) : Res :=
  s.runVector (.vsrlImm h vd va imm)

/-- VSRA (R211). -/
def execVsra (h : VHdr) (vd va vb : VReg) (s : State) : Res :=
  s.runVector (.vsra h vd va vb)

/-- VSRA, immediate form (R206). -/
def execVsraImm (h : VHdr) (vd va : VReg) (imm : BitVec 16) (s : State) : Res :=
  s.runVector (.vsraImm h vd va imm)

/-- VABS (R211). -/
def execVabs (h : VHdr) (vd va : VReg) (s : State) : Res :=
  s.runVector (.vabs h vd va)

/-- VNEG (R211). -/
def execVneg (h : VHdr) (vd va : VReg) (s : State) : Res :=
  s.runVector (.vneg h vd va)

/-- VFADD (R212). -/
def execVfadd (h : VHdr) (vd va vb : VReg) (s : State) : Res :=
  s.runVector (.vfadd h vd va vb)

/-- VFSUB (R212). -/
def execVfsub (h : VHdr) (vd va vb : VReg) (s : State) : Res :=
  s.runVector (.vfsub h vd va vb)

/-- VFMUL (R212). -/
def execVfmul (h : VHdr) (vd va vb : VReg) (s : State) : Res :=
  s.runVector (.vfmul h vd va vb)

/-- VFMA (R212). -/
def execVfma (h : VHdr) (vd va vb vc : VReg) (s : State) : Res :=
  s.runVector (.vfma h vd va vb vc)

/-- VFNMA (R212). -/
def execVfnma (h : VHdr) (vd va vb vc : VReg) (s : State) : Res :=
  s.runVector (.vfnma h vd va vb vc)

/-- VFMIN (R212). -/
def execVfmin (h : VHdr) (vd va vb : VReg) (s : State) : Res :=
  s.runVector (.vfmin h vd va vb)

/-- VFMAX (R212). -/
def execVfmax (h : VHdr) (vd va vb : VReg) (s : State) : Res :=
  s.runVector (.vfmax h vd va vb)

/-- VFABS (R212). -/
def execVfabs (h : VHdr) (vd va : VReg) (s : State) : Res :=
  s.runVector (.vfabs h vd va)

/-- VFNEG (R212). -/
def execVfneg (h : VHdr) (vd va : VReg) (s : State) : Res :=
  s.runVector (.vfneg h vd va)

/-- VFSCL (R213). -/
def execVfscl (h : VHdr) (vd va vb : VReg) (form : Bool) (s : State) : Res :=
  s.runVector (.vfscl h vd va vb form)

/-- VFRCP (R106). -/
def execVfrcp (h : VHdr) (vd va : VReg) (s : State) : Res :=
  s.runVector (.vfrcp h vd va)

/-- VFRSQ (R106). -/
def execVfrsq (h : VHdr) (vd va : VReg) (s : State) : Res :=
  s.runVector (.vfrsq h vd va)

/-- VFEXP2 (R106). -/
def execVfexp2 (h : VHdr) (vd va : VReg) (s : State) : Res :=
  s.runVector (.vfexp2 h vd va)

/-- VFLOG2 (R106). -/
def execVflog2 (h : VHdr) (vd va : VReg) (s : State) : Res :=
  s.runVector (.vflog2 h vd va)

/-- VCVT (R214). -/
def execVcvt (h : VHdr) (vd va : VReg) (src : ETy) (sat : Bool) (rm : RMode) (s : State) : Res :=
  s.runVector (.vcvt h vd va src sat rm)

/-- VCVTX (R217). -/
def execVcvtx (h : VHdr) (vd va : VReg) (s : State) : Res :=
  s.runVector (.vcvtx h vd va)

/-- VMXUP (R219). -/
def execVmxup (h : VHdr) (vd va : VReg) (rm : RMode) (s : State) : Res :=
  s.runVector (.vmxup h vd va rm)

/-- VMXPK (R220). -/
def execVmxpk (h : VHdr) (vd va : VReg) (src : ETy) (rm : RMode) (s : State) : Res :=
  s.runVector (.vmxpk h vd va src rm)

/-- VCMP (R221). -/
def execVcmp (h : VHdr) (kd : KReg) (va vb : VReg) (cond : Cond) (s : State) : Res :=
  s.runVector (.vcmp h kd va vb cond)

/-- VFCMP (R221). -/
def execVfcmp (h : VHdr) (kd : KReg) (va vb : VReg) (cond : Cond) (s : State) : Res :=
  s.runVector (.vfcmp h kd va vb cond)

/-- VWHILE (R222). -/
def execVwhile (h : VHdr) (kd : KReg) (gi gn : GReg) (uns : Bool) (s : State) : Res :=
  s.runVector (.vwhile h kd gi gn uns)

/-- KAND (R223). -/
def execKand (h : VHdr) (kd ka kb : KReg) (s : State) : Res :=
  s.runVector (.kand h kd ka kb)

/-- KOR (R223). -/
def execKor (h : VHdr) (kd ka kb : KReg) (s : State) : Res :=
  s.runVector (.kor h kd ka kb)

/-- KXOR (R223). -/
def execKxor (h : VHdr) (kd ka kb : KReg) (s : State) : Res :=
  s.runVector (.kxor h kd ka kb)

/-- KANDN (R223). -/
def execKandn (h : VHdr) (kd ka kb : KReg) (s : State) : Res :=
  s.runVector (.kandn h kd ka kb)

/-- KNOT (R223). -/
def execKnot (h : VHdr) (kd ka : KReg) (s : State) : Res :=
  s.runVector (.knot h kd ka)

/-- KMOV (R223). -/
def execKmov (h : VHdr) (kd ka : KReg) (s : State) : Res :=
  s.runVector (.kmov h kd ka)

/-- KPOP (R224). -/
def execKpop (h : VHdr) (gd : GReg) (ka : KReg) (s : State) : Res :=
  s.runVector (.kpop h gd ka)

/-- KFIRST (R224). -/
def execKfirst (h : VHdr) (gd : GReg) (ka : KReg) (s : State) : Res :=
  s.runVector (.kfirst h gd ka)

/-- VMXV (R225). -/
def execVmxv (h : VHdr) (kd : KReg) (va : VReg) (s : State) : Res :=
  s.runVector (.vmxv h kd va)

/-- VMOV (R227). -/
def execVmov (h : VHdr) (vd va : VReg) (s : State) : Res :=
  s.runVector (.vmov h vd va)

/-- VBCAST (R227). -/
def execVbcast (h : VHdr) (vd : VReg) (ga : GReg) (s : State) : Res :=
  s.runVector (.vbcast h vd ga)

/-- VBCASTB (R227). -/
def execVbcastb (h : VHdr) (vd va : VReg) (src : ETy) (log2B : BitVec 5) (s : State) : Res :=
  s.runVector (.vbcastb h vd va src log2B)

/-- VGATHR (R228). -/
def execVgathr (h : VHdr) (vd va vb : VReg) (s : State) : Res :=
  s.runVector (.vgathr h vd va vb)

/-- VPERM (R228). -/
def execVperm (h : VHdr) (vd va vb : VReg) (s : State) : Res :=
  s.runVector (.vperm h vd va vb)

/-- VSLDU (R229). -/
def execVsldu (h : VHdr) (vd va vb : VReg) (n : BitVec 16) (s : State) : Res :=
  s.runVector (.vsldu h vd va vb n)

/-- VSLDD (R229). -/
def execVsldd (h : VHdr) (vd va vb : VReg) (n : BitVec 16) (s : State) : Res :=
  s.runVector (.vsldd h vd va vb n)

/-- VCMPR (R230). -/
def execVcmpr (h : VHdr) (vd va : VReg) (s : State) : Res :=
  s.runVector (.vcmpr h vd va)

/-- VEXPD (R230). -/
def execVexpd (h : VHdr) (vd va : VReg) (s : State) : Res :=
  s.runVector (.vexpd h vd va)

/-- VIOTA (R230). -/
def execViota (h : VHdr) (vd : VReg) (form : Bool) (s : State) : Res :=
  s.runVector (.viota h vd form)

/-- VEXT (R231). -/
def execVext (ch : Bool) (et : ETy) (gd : GReg) (va : VReg) (gi : GReg) (s : State) : Res :=
  s.runVector (.vext ch et gd va gi)

/-- VINS (R231). -/
def execVins (ch : Bool) (et : ETy) (vd : VReg) (ga gi : GReg) (s : State) : Res :=
  s.runVector (.vins ch et vd ga gi)

/-- VRSUM (R233). -/
def execVrsum (h : VHdr) (vd va : VReg) (s : State) : Res :=
  s.runVector (.vrsum h vd va)

/-- VRMAX (R233). -/
def execVrmax (h : VHdr) (vd va : VReg) (s : State) : Res :=
  s.runVector (.vrmax h vd va)

/-- VRMIN (R233). -/
def execVrmin (h : VHdr) (vd va : VReg) (s : State) : Res :=
  s.runVector (.vrmin h vd va)

/-- VSCAN (R234). -/
def execVscan (h : VHdr) (vd va : VReg) (op : ScanOp) (s : State) : Res :=
  s.runVector (.vscan h vd va op)

/-- VFRSUM (R233). -/
def execVfrsum (h : VHdr) (vd va : VReg) (s : State) : Res :=
  s.runVector (.vfrsum h vd va)

/-- VFRMAX (R233). -/
def execVfrmax (h : VHdr) (vd va : VReg) (s : State) : Res :=
  s.runVector (.vfrmax h vd va)

/-- VFRMIN (R233). -/
def execVfrmin (h : VHdr) (vd va : VReg) (s : State) : Res :=
  s.runVector (.vfrmin h vd va)

/-- VFSCAN (R234). -/
def execVfscan (h : VHdr) (vd va : VReg) (op : ScanOp) (s : State) : Res :=
  s.runVector (.vfscan h vd va op)

/-- VLD (R262). -/
def execVld (h : VHdr) (ord : Ord) (vd : VReg) (vb : GReg) (disp : BitVec 16) (s : State) : Res :=
  s.runVector (.vld h ord vd vb disp)

/-- VST (R263). -/
def execVst (h : VHdr) (ord : Ord) (vd : VReg) (vb : GReg) (disp : BitVec 16) (s : State) : Res :=
  s.runVector (.vst h ord vd vb disp)

/-- VLDS (R262). -/
def execVlds (h : VHdr) (ord : Ord) (vd : VReg) (vb vc : GReg) (disp : BitVec 16) (s : State) : Res :=
  s.runVector (.vlds h ord vd vb vc disp)

/-- VSTS (R263). -/
def execVsts (h : VHdr) (ord : Ord) (vd : VReg) (vb vc : GReg) (disp : BitVec 16) (s : State) : Res :=
  s.runVector (.vsts h ord vd vb vc disp)

/-- VLDX (R262). -/
def execVldx (h : VHdr) (ord : Ord) (iw : IdxW) (vd va : VReg) (vb : GReg) (disp : BitVec 16) (s : State) : Res :=
  s.runVector (.vldx h ord iw vd va vb disp)

/-- VSTX (R263). -/
def execVstx (h : VHdr) (ord : Ord) (iw : IdxW) (vd va : VReg) (vb : GReg) (disp : BitVec 16) (s : State) : Res :=
  s.runVector (.vstx h ord iw vd va vb disp)

/-- VLDFF (R268). -/
def execVldff (h : VHdr) (ord : Ord) (vd : VReg) (vb : GReg) (disp : BitVec 16) (s : State) : Res :=
  s.runVector (.vldff h ord vd vb disp)

/-- VLDFF, strided form (R268). -/
def execVldffStrided (h : VHdr) (ord : Ord) (vd : VReg) (vb vc : GReg) (disp : BitVec 16) (s : State) : Res :=
  s.runVector (.vldffStrided h ord vd vb vc disp)

/-- VLDFF, indexed form (R268). -/
def execVldffIndexed (h : VHdr) (ord : Ord) (iw : IdxW) (vd va : VReg) (vb : GReg) (disp : BitVec 16) (s : State) : Res :=
  s.runVector (.vldffIndexed h ord iw vd va vb disp)

/-- VAMO (R323). -/
def execVamo (h : VHdr) (ord : Ord) (op : AOp) (iw : IdxW) (ret : Bool) (vd va : VReg) (vb : GReg) (vc : VReg) (s : State) : Res :=
  s.runVector (.vamo h ord op iw ret vd va vb vc)

/-- VAMOO (R324). -/
def execVamoo (h : VHdr) (ord : Ord) (op : AOp) (iw : IdxW) (ret : Bool) (vd va : VReg) (vb : GReg) (vc : VReg) (s : State) : Res :=
  s.runVector (.vamoo h ord op iw ret vd va vb vc)

/-- VLDGL (R325). -/
def execVldgl (h : VHdr) (ord : Ord) (iw : IdxW) (vd va : VReg) (vb : GReg) (s : State) : Res :=
  s.runVector (.vldgl h ord iw vd va vb)

/-- VSTSC (R325). -/
def execVstsc (h : VHdr) (ord : Ord) (iw : IdxW) (kd : KReg) (vd va : VReg) (vb : GReg) (s : State) : Res :=
  s.runVector (.vstsc h ord iw kd vd va vb)

/-- VSADD (R326). -/
def execVsadd (h : VHdr) (ord : Ord) (iw : IdxW) (vd va : VReg) (vb : GReg) (s : State) : Res :=
  s.runVector (.vsadd h ord iw vd va vb)

/-- MZERO (R285). -/
def execMzero (ch : Bool) (acc : BitVec 2) (s : State) : Res :=
  s.runVector (.mzero ch acc)

/-- MOPA (R283). -/
def execMopa (h : VHdr) (acc : BitVec 2) (va : VReg) (sl : BitVec 1) (s : State) : Res :=
  s.runVector (.mopa h acc va sl)

/-- MOPS (R283). -/
def execMops (h : VHdr) (acc : BitVec 2) (va : VReg) (sl : BitVec 1) (s : State) : Res :=
  s.runVector (.mops h acc va sl)

/-- MREAD (R287). -/
def execMread (h : VHdr) (acc : BitVec 2) (va : VReg) (m0 : BitVec 6) (rm : RMode) (s : State) : Res :=
  s.runVector (.mread h acc va m0 rm)

/-- MWRITE (R287). -/
def execMwrite (h : VHdr) (acc : BitVec 2) (va : VReg) (m0 : BitVec 6) (s : State) : Res :=
  s.runVector (.mwrite h acc va m0)

/-- MSAVE of a tile (R289). -/
def execMsaveAcc (ch : Bool) (ord : Ord) (acc : BitVec 2) (vc : GReg) (disp : BitVec 16) (s : State) : Res :=
  s.runVector (.msaveAcc ch ord acc vc disp)

/-- MSAVE of a latch (R289). -/
def execMsaveLatch (ch : Bool) (ord : Ord) (sl : BitVec 1) (scale : Bool) (vc : GReg) (disp : BitVec 16) (s : State) : Res :=
  s.runVector (.msaveLatch ch ord sl scale vc disp)

/-- MLOAD of a tile (R289). -/
def execMloadAcc (ch : Bool) (ord : Ord) (acc : BitVec 2) (vc : GReg) (disp : BitVec 16) (s : State) : Res :=
  s.runVector (.mloadAcc ch ord acc vc disp)

/-- MLOAD of a latch (R289). -/
def execMloadLatch (ch : Bool) (ord : Ord) (sl : BitVec 1) (scale : Bool) (vc : GReg) (disp : BitVec 16) (s : State) : Res :=
  s.runVector (.mloadLatch ch ord sl scale vc disp)

/-- VSEND (R168). -/
def execVsend (h : VHdr) (va : VReg) (q : Port) (tag : BitVec 7) (s : State) : Res :=
  s.runVector (.vsend h va q tag)

/-- VRECV (R168). -/
def execVrecv (h : VHdr) (vd : VReg) (q : Port) (s : State) : Res :=
  s.runVector (.vrecv h vd q)

end Sys2Proof.Machine
end

