-- ==== Sys2Proof/Machine/Waits.lean ====
section
/-!
DEFINITION. What a scalar word waits for: the registers it touches, and the reason it would park for now
(R113, R190, R330, R338, R349-R354, R373-R376, R381, R385, R434-R439).
-/

namespace Sys2Proof.Machine

/-! ## Registers of a scalar word (R190) -/

/-- The general registers a scalar word reads or writes; VFETCH and VLOOP do not count (R190) (DEDUCED, log 86). -/
def gregsOf (i : Instr) : List GReg :=
  match i with
  | .add a b c | .sub a b c | .and a b c | .or a b c | .xor a b c | .andn a b c | .orn a b c | .sll a b c
  | .srl a b c | .sra a b c | .rol a b c | .ror a b c | .slt a b c | .sltu a b c | .min a b c | .max a b c
  | .minu a b c | .maxu a b c | .mul a b c | .mulh a b c | .mulhu a b c | .div a b c | .divu a b c
  | .rem a b c | .remu a b c | .fadd a b c | .fsub a b c | .fdiv a b c | .fmin a b c | .fmax a b c
  | .fcmpeq a b c | .fcmplt a b c | .fcmple a b c | .msetl a b c => [a, b, c]
  | .fmul _ a b c | .fma _ a b c => [a, b, c]
  | .clz a b | .ctz a b | .popc a b | .brev a b | .bswap a b | .sextb a b | .sexth a b | .sextw a b
  | .zextw a b | .fsqrt a b | .fcvtfb a b | .xwait a b => [a, b]
  | .fcvtif _ a b | .fcvtfi _ a b | .fcvtbf _ a b => [a, b]
  | .addi a b _ | .andi a b _ | .ori a b _ | .xori a b _ | .slti a b _ | .sltiu a b _ | .jalr a b _ => [a, b]
  | .beq a b _ | .bne a b _ | .blt a b _ | .bge a b _ | .bltu a b _ | .bgeu a b _ => [a, b]
  | .slli a b _ | .srli a b _ | .srai a b _ => [a, b]
  | .ld _ _ a b _ | .ldu _ _ a b _ | .st _ _ a b _ => [a, b]
  | .amoadd _ _ a b c | .amoand _ _ a b c | .amoor _ _ a b c | .amoxor _ _ a b c | .amomin _ _ a b c
  | .amomax _ _ a b c | .amominu _ _ a b c | .amomaxu _ _ a b c | .amoswap _ _ a b c | .cas _ _ a b c => [a, b, c]
  | .lih a _ _ => [a]
  | .jal a _ => [a]
  | .recv a _ => [a, a + 1]
  | .recvn a _ | .send a _ => [a]
  | .sendc a _ _ => [a]
  | .vconf a _ _ => [a]
  | .stwait a b _ => [a, b]
  | .sconf b _ | .skick b _ => [b]
  | .dispq b _ _ => [b]
  | .evset b | .evclr b | .evwait b | .cuewait b => [b]
  | .cue b c | .xpost b c | .xcoll b c => [b, c]
  | .rdcue a | .ctlrVflags a | .ctlrFfe a => [a]
  | .ctlr a _ => [a]
  | .ctlw b _ => [b]
  | .ctlrPmbox a _ => [a]
  | .ctlwVflags b | .ctlwFfe b | .ctlwSrseed b | .ctlwXtab0 b | .ctlwXtab1 b | .ctlwEncore b => [b]
  | .ctlwVbcnt b _ | .ctlwPmbox b _ => [b]
  | _ => []

/-- A scalar word touches a pending register (R190). -/
def Proc.touchesPending (p : Proc) (i : Instr) : Bool :=
  (gregsOf i).any (fun r => r != 0 && p.pending.any (fun x => x.1 == r.toNat))

/-! ## Earlier vector work -/

/-- Every block, loop task and convoy has retired (R374). -/
def Proc.vectorIdle (p : Proc) : Bool := p.queue.isEmpty && p.tasks.isEmpty && p.convoys.isEmpty

/-- The vector words of the process that have not started: of its blocks, loop entries and tasks. -/
def State.wordsAhead (s : State) (p : Proc) : List Instr :=
  p.queue.flatMap (fun e => match e.kind with
    | .block => if e.stopped then [] else s.scanBlock p e.vpc scanLimit
    | .loop _ _ _ _ _ => s.scanBlock p e.addr 32
    | .fence => [])
  ++ p.tasks.flatMap (fun t => s.scanBlock p t.body.addr 32)

/-- Words of the process's vector work that have not passed all their groups. -/
def State.wordsOpen (s : State) (p : Proc) : List Instr :=
  s.wordsAhead p ++ (p.convoys.filter (fun c => !c.finished)).flatMap (·.members)

/-- A word draws on SRSEED (R99). -/
def readsSeed (i : Instr) : Bool :=
  match i with
  | .vcvt _ _ _ _ _ .sr => true
  | .vmxup _ _ _ .sr => true
  | .vmxpk _ _ _ _ .sr => true
  | .mread _ _ _ _ .sr => true
  | _ => false

/-- A word latches XTAB0 and XTAB1 (R218). -/
def readsXtab (i : Instr) : Bool :=
  match i with
  | .vcvtx _ _ _ => true
  | _ => false

/-- A word receives at a port. -/
def receivesAt (q : Nat) (i : Instr) : Bool :=
  match i with
  | .vrecv _ _ r => r.toNat == q
  | _ => false

/-! ## Streams: what is still owed (R340, R341, R350) -/

/-- A block or an iteration that has not retired recorded strip `k` of configuration `conf` of stream `j`: of a loop's
STEP streams, the strips of the iterations still to retire (R340, R358). -/
def Proc.stripUsed (p : Proc) (j conf k : Nat) : Bool :=
  let bound := fun (n : Snap) (at' : HeadRec → Bool) => n.heads.any (fun h => match h with
    | some h => h.stream == j && h.conf == conf && at' h
    | none => false)
  let hit := fun (n : Snap) => bound n (fun h => h.strip == k)
  let loop := fun (n : Snap) (step lo hi : Nat) =>
    if step.testBit j then bound n (fun _ => decide (lo ≤ k) && decide (k < hi)) else hit n
  p.queue.any (fun e => match e.kind with
    | .block => hit e.snap
    | .loop trip step _ _ strip0 => loop e.snap step (strip0.getD j 0) (strip0.getD j 0 + trip)
    | .fence => false)
  || p.tasks.any (fun t => loop t.body.snap t.step (t.strip0.getD j 0 + t.iter) (t.strip0.getD j 0 + t.trip))

/-- Strip `k` of a context of stream `j` is released (R340). -/
def Proc.letGo (p : Proc) (j : Nat) (t : StreamCtx) (k : Nat) : Bool := decide (k < t.steps) && !p.stripUsed j t.conf k

/-- Strip `k` of the context the engine serves is released (R340). -/
def Proc.stripReleased (p : Proc) (j k : Nat) : Bool := p.letGo j (p.live j) k

/-- Strips the engine deals with: those of the transfer, but for what an SDRAIN has discarded. -/
def StreamCtx.last (t : StreamCtx) : Nat := min t.stripCount (t.limit.getD t.stripCount)

/-- The transfer of a record has strips that have not been dealt with. -/
def StreamCtx.open (t : StreamCtx) : Bool := (t.modeCode == 1 || t.modeCode == 2) && decide (t.done < t.last)

/-- The engine has work left for a context. -/
def StreamCtx.unfinished (t : StreamCtx) : Bool := t.open || (!t.fault && !t.kicks.isEmpty) || t.faulting.isSome

/-- Contexts of stream `j`, the present one last. -/
def Proc.contexts (p : Proc) (j : Nat) : List StreamCtx := (p.closing.filter (fun x => x.1 == j)).map (·.2) ++ [p.stream j]

/-- What SDRAIN waits for of a context (R350): a copy's transfers; the write-back of the released strips of a kicked store
stream, while it has no fault. -/
def Proc.owes (p : Proc) (j : Nat) (t : StreamCtx) : Bool :=
  if t.modeCode = 0 then !t.kicks.isEmpty else t.modeCode == 2 && t.kicked && !t.fault && t.open && p.letGo j t t.done

/-- What SDRAIN waits for of a stream (R350). -/
def Proc.streamOwes (p : Proc) (j : Nat) : Bool := (p.contexts j).any (p.owes j)

/-- Transfers of a stream not complete (R341). -/
def StreamCtx.incomplete (t : StreamCtx) : Nat := t.kicks.length

/-! ## Events (R352, R353) -/

/-- The mask of an event specification over the tile's bits, or none where it leaves the window (R352). -/
def Proc.evSpec (p : Proc) (w : Word) : Option (BitVec 256) :=
  let o := w.toNat % 256
  let m := w.toNat / 256 % 2 ^ 24
  if w.toNat / 2 ^ 32 ≠ 0 ∨ p.desc.evcnt < o + (if m = 0 then 0 else m.log2 + 1) ∧ m ≠ 0 then none
  else some (BitVec.ofNat 256 (m * 2 ^ (o + p.desc.evbase)))

/-- A window mask over the tile's bits. -/
def Proc.tileMask (p : Proc) (m : Nat) : BitVec 256 := BitVec.ofNat 256 (m * 2 ^ p.desc.evbase)

/-- The event bits of a mask are all set. -/
def Tile.evTest (t : Tile) (m : BitVec 256) : Bool := t.events &&& m == m

/-- Event bits cleared. -/
def Tile.evClear (t : Tile) (m : BitVec 256) : Tile := { t with events := t.events &&& ~~~m }

/-- A task that tests its WAIT bits now (R358). -/
def Task.waiting (k : Task) : Bool := !k.running && decide (k.iter < k.trip)

/-- The test of a waiter among the tasks of its process: it succeeds unless an older one succeeds that shares a bit
(R353). -/
def Proc.testAmong (p : Proc) (t : Tile) (m : BitVec 256) (older : Task → Bool) : Bool :=
  t.evTest m && p.tasks.all (fun k =>
    !(older k && k.waiting && t.evTest (p.tileMask k.wait) && p.tileMask k.wait &&& m != 0))

/-! ## Why a word would park -/

/-- A port word's channel, where the port checks of R164 pass. -/
def State.portOk (s : State) (p : Proc) (q : Port) (sends : Bool) : Except Cause (Nat × Chan) :=
  match p.port q.toNat with
  | none => .error 0x30
  | some (c, prod) =>
    if prod != sends then .error 0x34
    else match s.chan? c with
      | none => .error 0x30
      | some x => .ok (c, x)

/-- The producer of a channel a process's port is. -/
def Chan.prodAt (x : Chan) (pid : Nat) (q : Port) : Option (Nat × Producer) :=
  match x.prodOf (.proc pid q.toNat) with
  | none => none
  | some k => (x.prods[k]?).map (fun d => (k, d))

/-- Why a send at a port would wait (R165, R385). -/
def State.sendWait (s : State) (pid : Nat) (p : Proc) (q : Port) : Option ParkReason :=
  match s.portOk p q true with
  | .error _ => none
  | .ok (_, x) =>
    if p.portHeld q.toNat then some .cueWait
    else if s.consumerRetired x then none
    else match x.prodAt pid q with
      | none => none
      | some (_, d) => if d.credits = 0 then some .channelWrite else none

/-- Why a receive at a port would wait (R166, R435). -/
def State.recvWait (s : State) (p : Proc) (q : Port) : Option ParkReason :=
  match s.portOk p q false with
  | .error _ => none
  | .ok (_, x) => if p.triggered q.toNat || x.buffer.isEmpty then some .channelRead else none

/-- The posts of a queue not complete (R434). -/
def XQueue.openPosts (x : XQueue) : Nat := (x.posts.filter (fun t => !t.done)).length

/-- The count an XWAIT selects, of 48 bits (R431, R437, R440). -/
def Proc.xcount (p : Proc) (sel q : Nat) : Nat :=
  (match sel with
    | 0 => (p.queueAt q).doneCount
    | 1 => (p.queueAt q).arrived
    | _ => p.coll) % 2 ^ 48

/-- The fault XWAIT meets at or below a value: its number and cause (R437). A fault of a queue stops its DONE; the
ARRIVED count has none. -/
def Proc.xfault (p : Proc) (sel q v : Nat) : Option (Nat × Cause) :=
  match sel with
  | 0 => match (p.queueAt q).fault with
    | some (n, c) => if n ≤ v then some (n, c) else none
    | none => none
  | 1 => none
  | _ => match p.collFault with
    | some (n, c) => if n ≤ v then some (n, c) else none
    | none => none

/-- The operand of XWAIT is well formed (R437). -/
def Proc.xwaitOk (p : Proc) (w : Word) : Bool :=
  let x := w.toNat
  let v := x / 2 ^ 16
  let sel := x / 16 % 4
  let q := x % 4
  x / 64 % 1024 == 0 && x / 4 % 4 == 0 && sel != 3 && (sel != 2 || q == 0)
    && (sel != 0 || decide (v ≤ (p.queueAt q).posted)) && (sel != 2 || decide (v ≤ p.collIssued))

/-- A CUE slot of the process is armed (DEDUCED, log 38). -/
def Proc.armed (p : Proc) : Bool := p.cue.toList.any (·.isSome)

/-- The word waits for vector drain unless a condition holds. -/
def drainUnless (b : Bool) : Option ParkReason := if b then none else some .vectorDrain

/-- A transfer that has ended, of the stream itself or in a buffer group of record `r`, that the engine has not finished:
the record's own groups are not zeroed before it is (R337) (DEDUCED, log 35). -/
def Proc.oldStrips (p : Proc) (j : Nat) (r : StreamCtx) : Bool :=
  let groups := fun (t : StreamCtx) => if t.modeCode = 0 then [] else (List.range (t.heads * t.depth)).map (t.g0 + ·)
  let inWay := fun (k : Nat) (t : StreamCtx) => t.unfinished && (k == j || (groups t).any ((groups r).contains ·))
  p.closing.any (fun x => inWay x.1 x.2)
  || (List.range 8).any (fun k => (p.stream k).mode == .unconfigured && (p.stream k).modeCode != 0 && inWay k (p.stream k))

/-- The five doublewords of a record read by SCONF, as a context (R334). -/
def recordOf (b : List Byte) : StreamCtx :=
  let d := fun k => BitVec.ofNat 64 (leNat ((b.drop (8 * k)).take 8))
  { StreamCtx.init with base := d 0, aux := d 1, stride := d 2, ctrl := d 3, bits := d 4 }

/-- The record bytes a record word has read whole. -/
def Proc.readRecord (p : Proc) (i : Instr) : Option (List Byte) :=
  match p.pend with
  | some (.done _) => if recordBytes i ≤ p.record.length then some (p.record.take (recordBytes i)) else none
  | _ => none

/-- The doublewords of a work request (R433). -/
def postOf (b : List Byte) : Post :=
  let d := fun k => leNat ((b.drop (8 * k)).take 8)
  { number := 0, src := BitVec.ofNat 64 (d 0), dst := BitVec.ofNat 64 (d 1), len := d 2 % 2 ^ 32
    tqh := BitVec.ofNat 32 (d 2 / 2 ^ 32), kind := d 3 / 16 % 4, port := d 3 / 2 ^ 12 % 16, tq := d 3 / 2 ^ 10 % 4
    tsel := d 3 / 2 ^ 8 % 4, value := d 3 / 2 ^ 16, fired := false, pkg := 0, runs := [], sent := 0, unacked := []
    done := false }

/-- Rows 2 and 3 of R434 for a work request: malformed, or the queue has faulted. -/
def Proc.postCause (p : Proc) (gc : Word) (b : List Byte) : Option Cause :=
  let t := postOf b
  let w := leNat ((b.drop 24).take 8)
  let bad := decide (4 ≤ gc.toNat) || w % 16 != 0 || w / 64 % 4 != 0 || t.kind == 3 || t.len == 0
    || (t.kind != 2 && (t.value != 0 || t.tq != 0 || t.tsel != 0)) || (t.kind != 1 && t.port != 0)
    || (t.kind == 2 && (t.tsel == 3 || (t.tsel == 2 && t.tq != 0)))
    || (t.kind == 1 && (match p.port t.port with
      | some (_, prod) => prod
      | none => true))
  if bad then some 0x94 else (p.queueAt gc.toNat).fault.map (·.2)

/-- The cause XCOLL raises (R439). -/
def State.collCause (s : State) (pid : Nat) (p : Proc) (gb gc : Word) : Option Cause :=
  let w := gb.toNat
  let group := (mget s.nets p.net).bind (·.coll)
  let bad := w / 2 ^ 48 % 64 != 0 || w / 2 ^ 32 % 2 ^ 10 != 0 || w % 2 ^ 32 == 0 || w / 2 ^ 42 % 4 == 3
    || !([2, 3, 6, 7, 9, 10].contains (w / 2 ^ 44 % 16)) || !inDevice gc
    || (match group with
      | some g => g.proc != pid
      | none => false)
  if bad then some 0x94
  else if gc.toNat % 64 ≠ 0 then some 0x08
  else match group with
    | some g => if w / 2 ^ 54 = g.digest.devcnt then none else some 0x95
    | none => some 0x95

/-- Why a record word waits once its record is there (R338, R434, R435). -/
def State.recordWait (s : State) (p : Proc) (i : Instr) (b : List Byte) : Option ParkReason :=
  match i with
  | .sconf _ _ =>
    let r := recordOf b
    if r.permBit && (s.wordsOpen p).any (fun w => (useOf w).w.any (fun x => x.1 == r.vi)) then some .vectorDrain
    else none
  | .xpost _ c =>
    let t := postOf b
    if (p.postCause (p.rd c) b).isSome then none
    else if 16 ≤ (p.queueAt (p.rd c).toNat).openPosts then some .transferWait
    else if t.kind = 1 ∧ (s.wordsAhead p ++ p.convoys.flatMap (·.members)).any (receivesAt t.port) then some .vectorDrain
    else none
  | _ => none

/-- The reason a scalar word would park for now, or none: its wait is over, or it has none (R113). -/
def State.waitOf (s : State) (pid : Nat) (p : Proc) (i : Instr) : Option ParkReason :=
  let t := s.tile p.tile
  if p.touchesPending i then some .vectorDrain
  else match i with
  | .sysc => drainUnless (p.vectorIdle && t.vecDrained pid)
  | .brk => drainUnless (p.vectorIdle && t.vecDrained pid)
  | .fenceVs => drainUnless (p.vectorIdle && t.vecDrained pid)
  | .fenceSv => drainUnless ((t.pendingStores pid).all (·.vec))
  | .vsync => drainUnless (p.vectorIdle && (t.pendingStores pid).isEmpty)
  | .fenceVv => drainUnless (decide (p.queue.length < 8))
  | .vfetch _ => drainUnless (decide (p.queue.length < 8))
  | .vloop _ _ _ => drainUnless (decide (p.queue.length < 8)
      && decide (p.tasks.length + (p.queue.filter (fun e => match e.kind with
        | .loop _ _ _ _ _ => true
        | _ => false)).length < 4))
  | .vconf _ _ _ => drainUnless (p.vectorIdle && (List.range 8).all (fun j =>
      (p.stream j).mode != .unconfigured || !(p.stream j).open) && p.closing.isEmpty)
  | .retire =>
    if p.armed then some .cueWait
    else drainUnless (p.vectorIdle && (t.pendingStores pid).isEmpty && p.acks.isEmpty && p.queries.isEmpty
      && p.launches.isEmpty && p.cueWait.isEmpty && (List.range 8).all (fun j => !p.streamOwes j))
  | .ctlrVflags _ => drainUnless p.vectorIdle
  | .ctlrFfe _ => drainUnless p.vectorIdle
  | .ctlwVflags _ => drainUnless p.vectorIdle
  | .ctlwFfe _ => drainUnless p.vectorIdle
  | .ctlwVbcnt _ _ => drainUnless p.vectorIdle
  | .ctlwSrseed _ => drainUnless (!(s.wordsOpen p).any readsSeed)
  | .ctlwXtab0 _ => drainUnless (!(s.wordsAhead p).any readsXtab)
  | .ctlwXtab1 _ => drainUnless (!(s.wordsAhead p).any readsXtab)
  | .recv _ q => s.recvWait p q
  | .recvn _ q => s.recvWait p q
  | .send _ q => s.sendWait pid p q
  | .sendc _ q _ => s.sendWait pid p q
  | .evwait b => match p.evSpec (p.rd b) with
    | none => none
    | some m => if m = 0 ∨ p.testAmong t m (fun _ => true) then none else some .eventWait
  | .cuewait b => if (p.rd b).toNat ≤ s.cue then none else some .cueWait
  | .cue _ c =>
    let w := (p.rd c).toNat
    if w / 4 % 4 = 1 ∧ p.portHeld (w / 16 % 16) ∨ w / 4 % 4 = 2 ∧ p.streamHeld (w / 16 % 16) then some .cueWait else none
  | .sconf b j =>
    if p.streamHeld j.toNat then some .cueWait
    else match p.readRecord i with
      | some r => s.recordWait p i r
      | none => if p.pend.isSome && (p.rd b).toNat % 8 == 0 then some .memoryReply else none
  | .xpost b _ => match p.readRecord i with
    | some r => s.recordWait p i r
    | none => if p.pend.isSome && (p.rd b).toNat % 8 == 0 then some .memoryReply else none
  | .skick _ j =>
    if p.streamHeld j.toNat then some .cueWait
    else if 4 ≤ (p.stream j.toNat).incomplete then some .transferWait else none
  | .sdrain j =>
    if p.streamHeld j.toNat then some .cueWait
    else if (p.stream j.toNat).mode != .unconfigured && p.streamOwes j.toNat then some .transferWait else none
  | .stwait _ b j =>
    let k := p.stream j.toNat
    let x := (p.rd b).toNat % 2 ^ 48
    if k.lastId < x ∨ k.fault ∨ x ≤ k.watermark then none else some .transferWait
  | .dispq _ _ _ => if 8 ≤ p.queries.length then some .memoryReply else none
  | .xwait _ b =>
    let w := p.rd b
    let v := w.toNat / 2 ^ 16
    let sel := w.toNat / 16 % 4
    let q := w.toNat % 4
    if !p.xwaitOk w || decide (v ≤ p.xcount sel q) || (p.xfault sel q v).isSome then none else some .transferWait
  | .xcoll b c => if (s.collCause pid p (p.rd b) (p.rd c)).isNone && decide (4 ≤ p.colls.length) then some .transferWait else none
  | .st _ _ _ b d => match p.pend with
    | some .spad => if 8 ≤ (t.fifo pid (spSlice (p.ea b d).toNat)).length then some .memoryReply else none
    | some (.done _) => none
    | some _ => some .memoryReply
    | none => none
  | _ => match p.pend with
    | some (.done _) => none
    | some _ => some .memoryReply
    | none => none

/-- The current process's word: it parks while it must wait, else it has its effect (R113). -/
def State.unlessWaiting (s : State) (p : Proc) (i : Instr) (f : State) : State :=
  match s.waitOf s.cur p i with
  | some r => s.parkCur p r i
  | none => f

end Sys2Proof.Machine
end

