-- ==== Sys2Proof/Machine/Lifecycle.lean ====
section
/-!
DEFINITION. The end of a process and of a network, the clearing of a tile, and tokens the Prompter puts on a reply
channel (R32, R43, R44, R448, R450, R483).
-/

namespace Sys2Proof.Machine

/-! ## Reply channels (R448, R450, R483) -/

/-- A token of the Prompter's: tag 2 for a header, 0 for an argument or result. -/
def promptToken (x : Word) (tag : Byte) : Token := { data := leBytes 8 x.toNat, tag, poison := [false] }

/-- A reply: a header and its results. -/
def replyTokens (hd : Word) (res : List Word) : List Token := promptToken hd 2 :: res.map (fun x => promptToken x 0)

/-- Waiting replies placed on REPLYOUT as far as its 64 slots allow, in order and each whole (R448, R483). -/
def Fn.settleReplies (f : Fn) : Nat → Fn
  | 0 => f
  | n + 1 => match f.replyWait with
    | [] => f
    | r :: rest =>
      if f.reply.length + r.length ≤ 64 then { f with reply := f.reply ++ r, replyWait := rest }.settleReplies n else f

/-- The mask bit of an MSI-X vector's entry, PRESUMED from PCI Express (log 20). -/
def Fn.masked (f : Fn) (v : Nat) : Bool := (memByte f.msix (16 * v + 12)).getLsbD 0

/-- An MSI-X vector signalled (R442): its message is sent, or is pending while the vector is masked. -/
def Fn.signal (f : Fn) (v : Nat) : Fn :=
  if f.masked v then { f with pba := f.pba ||| (1#20 <<< v) } else { f with irqs := f.irqs ++ [v] }

/-- A reply written on a function's reply channel. -/
def State.sendReply (s : State) (fn : Nat) (l : List Token) : State :=
  s.modFn fn (fun f =>
    let f' := { f with replyWait := f.replyWait ++ [l] }.settleReplies (f.replyWait.length + 1)
    if f.reply.isEmpty && !f'.reply.isEmpty then f'.signal 0 else f')

/-- The reply to a command, from its header: OP, NRES, NET, STATUS and SEQ (R448). -/
def State.replyCmd (s : State) (fn : Nat) (hd : Word) (net status : Nat) (res : List Word) : State :=
  s.sendReply fn (replyTokens (BitVec.ofNat 64 (hd.toNat / 2 ^ 56 * 2 ^ 56 + res.length % 256 * 2 ^ 48 + net % 256 * 2 ^ 40
    + status % 256 * 2 ^ 32 + hd.toNat % 2 ^ 32)) res)

/-! ## Tiles (R32, R257) -/

/-- A tile cleared for another tenant: every memory of it zero, its slices' state and counts kept (R32, R145). -/
def Tile.clear (t : Tile) : Tile :=
  { t with
    pmbox := Vector.replicate 8 0, pmboxNew := [], spad := [], spadPoison := [], under := [], underPoison := []
    errors := [], slices := t.slices.map (fun x => { x with stale := [] }), unformed := [], fifos := [], events := 0, owner := none
    tlb := [], misses := [], wanted := [], denied := [], matrix := [], loops := [], asking := [] }

/-- A tile without processes is cleared and free (R32, R43). -/
def State.freeTile (s : State) (t : Nat) : State :=
  if s.procs.any (fun x => x.2.tile == t && x.2.holdsTile) then s
  else match mget s.tiles t with
    | none => s
    | some x => s.setTile t x.clear

/-! ## Retirement (R43) -/

/-- A process after its retirement: its resources returned (DESIGN CHOICE, log 72). -/
def Proc.ended (p : Proc) : Proc :=
  { p with
    st := .retired, priv := false, park := none, frozen := false, woken := false, pend := none, record := [], queue := [], tasks := [], convoys := []
    pending := [], ringWait := none, streams := Vector.replicate 8 StreamCtx.init, closing := [], claim := false, rows := []
    rowPoison := [], masks := [], acc := [], accPoison := [], latch := [], latchPoison := []
    cue := Vector.replicate 4 none, cueWait := [], launches := [], queries := [], resvUnits := 0, resvNext := 0
    saved := none, ctxLost := false, savedEvents := 0, kept := false, savePages := 0, moved := none, movedEnds := [], acks := [] }

/-- Waiting launches of a process, launched: their stores have been performed (R162), or end with the process, whose
tokens stay in their channels (R43). -/
def State.launchAll (s : State) (pid : Nat) : State :=
  match s.proc? pid with
  | none => s
  | some p => p.launches.foldl (fun (s : State) l => s.launch l.chan l.prod l.token) (s.setProc pid { p with launches := [] })

/-- The tokens a channel holds, on their way to the consumer and out of order on a circuit included (R44). -/
def Chan.held (c : Chan) : Nat :=
  c.buffer.length + c.spill.length + c.prods.foldl (fun n d => n + d.flight.length) 0
    + c.circuits.foldl (fun n ci => n + ci.heldTokens.length) 0

/-- The packages on the circuits of a process's channels are told that its end has retired (R161). -/
def State.tellGone (s : State) (pid : Nat) : State :=
  { s with vout := s.vout ++ s.chans.flatMap (fun x =>
      let tell := fun (k : Nat) => x.2.circuits.map (fun ci => Packet.snap ci.pkg (x.2.handle x.1) { parts := [], gone := some k })
      (match x.2.consumer with
        | .proc q _ => if q = pid then tell 0 else []
        | _ => [])
      ++ x.2.prods.zipIdx.flatMap (fun d => match d.1.src with
        | .proc q _ => if q = pid then tell (d.2 + 1) else []
        | _ => [])) }

/-- The completion report of a network (R483). -/
def completionReport (n : Net) : List Token :=
  replyTokens (BitVec.ofNat 64 (0x80 * 2 ^ 56 + 3 * 2 ^ 48 + n.number * 2 ^ 40 + n.killed.toNat * 256 + n.gen))
    [n.signature, BitVec.ofNat 64 n.discarded, BitVec.ofNat 64 n.left]

/-- A network whose processes have all retired: its channels, spill pages, reservations, box offices and tiles are
returned, and its report is sent (R44) (DEDUCED, log 41). -/
def State.completeNet (s : State) (k : Nat) : State :=
  match mget s.nets k with
  | none => s
  | some n =>
    if n.st == .completed || !n.procs.all s.isRetired then s
    else
      let left := n.chans.foldl (fun m c => match s.chan? c with
        | some x => m + x.held
        | none => m) 0
      let n' := { n with st := .completed, left, thermal := false, deadline := none, chans := [], offices := [] }
      let s := { s with
        nets := mset s.nets k n'
        chans := s.chans.filter (fun x => x.2.net != k)
        fns := s.fns.map (fun x => (x.1, { x.2 with slots := x.2.slots.filter (fun y => !n.chans.contains y.2.chan) }))
        offices := n.offices.foldl (fun o x => vput o x.1 Office.init) s.offices
        queueHandles := s.queueHandles.filter (fun x => !n.procs.contains x.2.1) }
      match mget s.tenants n.tenant with
      | none => s
      | some t => s.sendReply t.fn (completionReport n')

/-- A process retires: its slot and resources go back, and with the last process of the network the network is
complete (R43, R44, R293, R325) (DEDUCED, log 41). -/
def State.retireProc (s : State) (pid : Nat) : State :=
  match s.proc? pid with
  | none => s
  | some p =>
    let s := ((s.releaseRing pid).tellGone pid).launchAll pid
    let s := (s.unlinkProc pid).setProc pid p.ended
    let s := s.modTile p.tile (fun t =>
      { t with loops := t.loops.filter (fun x => x.1 != pid), matrix := t.matrix.filter (fun x => x.1 != pid)
               fifos := t.fifos.filter (fun x => x.1 / 4 != pid)
               events := match p.st with
                 | .preempted _ => t.events
                 | _ => t.events &&& ~~~(p.tileMask (2 ^ p.desc.evcnt - 1)) })
    let s := { s with contexts := mdel s.contexts pid, offices := s.offices.map (fun (o : Office) => { o with waiting := o.waiting.filter (· != pid) }) }
    (s.freeTile p.tile).completeNet p.net

end Sys2Proof.Machine
end

