-- ==== Sys2Proof/Machine/System.lean ====
section
/-!
DEFINITION. Control registers, fences, service traps, retirement, and the words that hand work to the vector unit
(R116, R117, R137-R146, R188-R190, R276, R277, R356, R372-R376, R406-R408).
-/

namespace Sys2Proof.Machine

/-! ## Control registers (R139-R145) -/

/-- PSTAT (R140). -/
def Proc.pstat (p : Proc) : Word :=
  let d := p.desc
  BitVec.ofNat 64 (p.priv.toNat * 2 ^ 63 + d.fport * 2 ^ 56 + d.fpen.toNat * 2 ^ 55 + d.accs * 2 ^ 52 + d.rows * 2 ^ 42
    + d.evbase * 2 ^ 34 + d.evcnt * 2 ^ 25 + d.spbase * 2 ^ 16 + d.spsize * 2 ^ 6)

/-- VGEOM (R187). -/
def Geom.toWord (g : Geom) : Word := BitVec.ofNat 64 (g.lrows * 2 ^ 16 + g.nbufs * 2 ^ 12 + g.nregs * 2 ^ 7)

/-- Field of a slice in SPADST (R259). -/
def Slice.status (x : Slice) : Nat :=
  match x.st with
  | .normal => 0
  | .sweeping b p => 1 * 2 ^ 14 + b * 2 ^ 10 + p
  | .degraded b => 2 * 2 ^ 14 + b * 2 ^ 10
  | .failed b => 3 * 2 ^ 14 + b * 2 ^ 10

/-- SPADST (R259). -/
def Tile.spadst (t : Tile) : Word :=
  BitVec.ofNat 64 ((t.slice 0).status + (t.slice 1).status * 2 ^ 16 + (t.slice 2).status * 2 ^ 32
    + (t.slice 3).status * 2 ^ 48)

/-- TILE: the logical tile number (R37). -/
def Proc.ltile (p : Proc) : Nat := p.ldie * 96 + p.desc.ly * 12 + p.desc.lx

/-- FLITCAP (R143). -/
def flitcap : Word := 0x204040

/-- The value of a control register that CTLR copies, by index (R139); none for an index that is absent. -/
def State.ctlValue (s : State) (p : Proc) (x : Nat) : Option Word :=
  match x with
  | 0x000 => some p.pstat
  | 0x001 => some (BitVec.ofNat 64 p.desc.lproc)
  | 0x002 => some (BitVec.ofNat 64 p.ltile)
  | 0x003 => some (BitVec.ofNat 64 p.tenant)
  | 0x004 => some (BitVec.ofNat 64 (p.eff * 256 + p.desc.prio))
  | 0x010 => some p.trap.epc
  | 0x011 => some p.trap.tcause
  | 0x012 => some p.trap.taddr
  | 0x013 => some p.trap.telem
  | 0x014 => some p.trap.tinfo
  | 0x020 => some p.geom.toWord
  | 0x021 => some p.ffe
  | 0x022 => some p.vflags.toWord
  | 0x023 => some p.xtab0
  | 0x024 => some p.xtab1
  | 0x025 => some p.srseed
  | 0x030 => some (BitVec.ofNat 64 (p.replays.toNat * 2 ^ 16 + p.encoreEn.toNat))
  | 0x031 => some (BitVec.ofNat 64 p.sigctl.toNat)
  | 0x032 => some (s.tile p.tile).spadst
  | 0x040 => some flitcap
  | 0x041 => some (BitVec.ofNat 64 s.cue)
  | _ =>
    if 0x038 ≤ x ∧ x < 0x040 then some ((vget p.vbcnt (x - 0x038) 0).setWidth 64)
    else if 0x050 ≤ x ∧ x < 0x054 then some ((p.queueAt (x - 0x050)).handle.setWidth 64)
    else none

/-- CTLR (R139). -/
def execCtlr (a : GReg) (x : BitVec 12) (s : State) : Res :=
  s.withCur fun p => match s.ctlValue p x.toNat with
    | some v => s.finishWr p a v
    | none => s.trapCur p 0x01

/-- CTLW of a register without a behaviour of its own: read-only, so the write is ignored (R19, R139). -/
def execCtlw (_b : GReg) (x : BitVec 12) (s : State) : Res :=
  s.withCur fun p => match s.ctlValue p x.toNat with
    | some _ => s.finish p
    | none => s.trapCur p 0x01

/-- CTLR of VFLAGS (R98). -/
def execCtlrVflags (a : GReg) (s : State) : Res :=
  s.withCur fun p => s.unlessWaiting p (.ctlrVflags a) (s.finishWr p a p.vflags.toWord)

/-- CTLR of FFE (R139, R268). -/
def execCtlrFfe (a : GReg) (s : State) : Res :=
  s.withCur fun p => s.unlessWaiting p (.ctlrFfe a) (s.finishWr p a p.ffe)

/-- What a word that issues in the tile's present cycle reads from a mailbox register (R116). -/
def Tile.pmboxAt (t : Tile) (k : Nat) : Word :=
  match (t.pmboxNew.filter (fun w => w.1 == k && decide (w.2.2 ≤ t.cycle))).getLast? with
  | some w => w.2.1
  | none => vget t.pmbox k 0

/-- A mailbox register written; writes already seen are settled (R116). -/
def Tile.pmboxPut (t : Tile) (k : Nat) (x : Word) (seen : Nat) : Tile :=
  let due := t.pmboxNew.filter (fun w => decide (w.2.2 ≤ t.cycle))
  { t with pmbox := due.foldl (fun v w => vput v w.1 w.2.1) t.pmbox
           pmboxNew := t.pmboxNew.filter (fun w => decide (t.cycle < w.2.2)) ++ [(k, x, seen)] }

/-- CTLR of a PMBOX register (R116, R117). -/
def execCtlrPmbox (a : GReg) (k : BitVec 3) (s : State) : Res :=
  s.withCur fun p =>
    if p.priv then s.finishWr p a ((s.tile p.tile).pmboxAt k.toNat) else s.trapCur p 0x03

/-- CTLW of a PMBOX register: seen eight cycles later (R116, R117). -/
def execCtlwPmbox (b : GReg) (k : BitVec 3) (s : State) : Res :=
  s.withCur fun p =>
    if p.priv then (s.finish p).modTile p.tile (fun t => t.pmboxPut k.toNat (p.rd b) (t.cycle + 8))
    else s.trapCur p 0x03

/-- CTLW of VFLAGS (R98). -/
def execCtlwVflags (b : GReg) (s : State) : Res :=
  s.withCur fun p => s.unlessWaiting p (.ctlwVflags b) (s.finish { p with vflags := Flags.ofWord (p.rd b) })

/-- CTLW of FFE (R139, R269). -/
def execCtlwFfe (b : GReg) (s : State) : Res :=
  s.withCur fun p => s.unlessWaiting p (.ctlwFfe b) (s.finish { p with ffe := p.rd b &&& 0xFFFFFFFF })

/-- CTLW of VBCNTk (R139, R199). -/
def execCtlwVbcnt (b : GReg) (k : BitVec 3) (s : State) : Res :=
  s.withCur fun p => s.unlessWaiting p (.ctlwVbcnt b k)
    (s.finish { p with vbcnt := vput p.vbcnt k.toNat ((p.rd b).setWidth 32) })

/-- CTLW of SRSEED (R99). -/
def execCtlwSrseed (b : GReg) (s : State) : Res :=
  s.withCur fun p => s.unlessWaiting p (.ctlwSrseed b) (s.finish { p with srseed := p.rd b })

/-- CTLW of XTAB0 (R218). -/
def execCtlwXtab0 (b : GReg) (s : State) : Res :=
  s.withCur fun p => s.unlessWaiting p (.ctlwXtab0 b) (s.finish { p with xtab0 := p.rd b })

/-- CTLW of XTAB1 (R218). -/
def execCtlwXtab1 (b : GReg) (s : State) : Res :=
  s.withCur fun p => s.unlessWaiting p (.ctlwXtab1 b) (s.finish { p with xtab1 := p.rd b })

/-- CTLW of ENCORE: the mode of entries introduced later, and the replay count (R419). -/
def execCtlwEncore (b : GReg) (s : State) : Res :=
  s.withCur fun p =>
    s.finish { p with encoreEn := (p.rd b).getLsbD 0, replays := BitVec.ofNat 32 ((p.rd b).toNat / 2 ^ 16) }

/-! ## SYSC, BRK, ERET and RETIRE (R137, R138, R407, R408) -/

/-- The current process's stores are performed, then it goes on (R368, R407). -/
def State.released (s : State) (f : State → Proc → State) : State :=
  let s' := s.flushAll s.cur
  match s'.proc? s'.cur with
  | none => s'
  | some p => f s' p

/-- SYSC (R407): drains, then traps as a release, its service number in TINFO (DEDUCED, log 12). -/
def execSysc (s : State) : Res :=
  s.withCur fun p => s.unlessWaiting p .sysc (s.released fun s p => s.trapAfter p 0x09 0 (p.rd 3))

/-- BRK (R407) (DEDUCED, log 12). -/
def execBrk (s : State) : Res :=
  s.withCur fun p => s.unlessWaiting p .brk (s.released fun s p => s.trapAfter p 0x0A p.pc 0)

/-- ERET (R408): service code ends, and the slot's process goes on from its context at its EPC; service code of a slot
that no process is in leaves it free (DEDUCED, log 13). -/
def execEret (s : State) : Res :=
  s.withCur fun p =>
    if !p.priv then s.trapCur p 0x03
    else match mget s.contexts s.cur with
      | some q => { s with contexts := mdel s.contexts s.cur, procs := mset s.procs s.cur (p.returned q) }
      | none => { s with procs := mdel s.procs s.cur }

/-- RETIRE (R138) (DEDUCED, log 38). -/
def execRetire (s : State) : Res :=
  s.withCur fun p => s.unlessWaiting p .retire (s.retireProc s.cur)

/-! ## Fences (R372-R376) -/

/-- FENCE.SV (R373). -/
def execFenceSv (s : State) : Res := s.withCur fun p => s.unlessWaiting p .fenceSv (s.finish p)

/-- FENCE.VS (R374); the scratchpad stores before it are performed before the accesses behind it (R366). -/
def execFenceVs (s : State) : Res := s.withCur fun p => s.unlessWaiting p .fenceVs (s.released fun s p => s.finish p)

/-- VSYNC (R376). -/
def execVsync (s : State) : Res := s.withCur fun p => s.unlessWaiting p .vsync (s.finish p)

/-- A new entry of the block queue (R189, R356, R375). -/
def Proc.newEntry (p : Proc) (kind : EntryKind) (addr : Word) : Entry :=
  { id := p.nextId, kind, addr, vpc := addr, snap := p.snapNow, sig := { checking := p.sigctl, want := 0, crc := 0 }
    stopped := false }

/-- An entry joins the queue; the registers its words write become pending (R189, R190). -/
def Proc.enqueue (p : Proc) (kind : EntryKind) (addr : Word) (writes : List Nat) : Proc :=
  { p with queue := p.queue ++ [p.newEntry kind addr], nextId := p.nextId + 1
           pending := p.pending ++ writes.map (fun r => (r, p.nextId)) }

/-- FENCE.VV (R375). -/
def execFenceVv (s : State) : Res :=
  s.withCur fun p => s.unlessWaiting p .fenceVv (s.finish (p.enqueue .fence 0 []))

/-! ## VCONF, VFETCH, VLOOP and MSETL -/

/-- The geometry of `n` registers and `b` buffer groups in a row budget (R183). -/
def geometry (rows n b : Nat) : Geom :=
  { lrows := if n + b = 0 then 0 else rows / (n + b), nbufs := b, nregs := n }

/-- The effect of VCONF on a process: geometry in force, rows and masks zero (R188). -/
def Proc.configure (p : Proc) (n b : Nat) : Proc :=
  { p with rows := [], rowPoison := [], masks := [], geom := geometry p.desc.rows n b }

/-- VCONF (R188). -/
def execVconf (a : GReg) (n : BitVec 3) (b : BitVec 4) (s : State) : Res :=
  s.withCur fun p => s.unlessWaiting p (.vconf a n b) (
    let k := 4 * n.toNat
    if p.streams.toList.any (·.bound) || !p.tasks.isEmpty then s.trapCur p 0x51
    else if (k = 0 ∧ 0 < b.toNat) ∨ p.desc.rows < k + b.toNat then s.trapCur p 0x50
    else
      let p' := p.configure k b.toNat
      s.finishWr p' a p'.geom.toWord)

/-- VFETCH (R189). -/
def execVfetch (disp : BitVec 21) (s : State) : Res :=
  s.withCur fun p =>
    let t := p.pc + 4 * signExt disp
    if t.getLsbD 2 then s.trapCur p 0x08 t
    else s.unlessWaiting p (.vfetch disp) (s.finish (p.enqueue .block t (s.blockWrites p t)))

/-- `n` steps of a stream; the last ends the transfer in the scalar view (R333, R340). -/
def StreamCtx.step (t : StreamCtx) (n : Nat) : StreamCtx :=
  let t' := { t with steps := t.steps + n }
  if t'.stripCount ≤ t'.steps then { t' with mode := .unconfigured } else t'

/-- Steps of every stream of a mask (R348, R356). -/
def Proc.stepStreams (p : Proc) (mask n : Nat) : Proc :=
  (List.range 8).foldl (fun p j => if mask.testBit j then p.modStream j (·.step n) else p) p

/-- A stream is bound with `n` steps before its strip count; one whose strip count is reached is not bound (R348,
R356). -/
def StreamCtx.canStep (t : StreamCtx) (n : Nat) : Bool :=
  t.bound && decide (t.steps < t.stripCount) && decide (t.steps + n ≤ t.stripCount)

/-- The cause VLOOP raises, if any (R352, R356) (DEDUCED, log 34). -/
def Proc.vloopCause (p : Proc) (trip masks : Word) : Option Cause :=
  let m := masks.toNat
  let o := m % 256
  let beyond := fun (x : Nat) => x != 0 && decide (p.desc.evcnt < o + x.log2 + 1)
  if trip.toNat / 2 ^ 32 ≠ 0 then some 0x65
  else if beyond (m / 2 ^ 32 % 2 ^ 24) || beyond (m / 2 ^ 8 % 2 ^ 24) then some 0x64
  else if (List.range 8).any (fun j => m.testBit (56 + j) && !(p.stream j).canStep trip.toNat) then some 0x61
  else none

/-- VLOOP (R356) (DEDUCED, log 34). -/
def execVloop (a b c : GReg) (s : State) : Res :=
  s.withCur fun p =>
    let trip := p.rd b
    let masks := p.rd c
    match p.vloopCause trip masks with
    | some cause => s.trapCur p cause
    | none => s.unlessWaiting p (.vloop a b c) (
      let m := masks.toNat
      let o := m % 256
      let step := m / 2 ^ 56
      let kind := EntryKind.loop trip.toNat step (m / 2 ^ 32 % 2 ^ 24 * 2 ^ o) (m / 2 ^ 8 % 2 ^ 24 * 2 ^ o)
        ((List.range 8).map (fun j => (p.stream j).steps))
      let writes := if trip = 0 then []
        else ((s.scanBlock p (p.rd a) 32).flatMap (fun i => (useOf i).gw)).filterMap
          (fun g => if g = 0 then none else some g.toNat)
      s.finish ((p.enqueue kind (p.rd a) writes).stepStreams step trip.toNat))

/-- A signed request clamped to 0 to `top` (R276) (DEDUCED, log 75). -/
def clampGrant (x : Word) (top : Nat) : Nat := min (max x.toInt 0).toNat top

/-- MSETL (R276, R277). -/
def execMsetl (a b c : GReg) (s : State) : Res :=
  s.withCur fun p =>
    let m := clampGrant (p.rd a) 64
    let n := clampGrant (p.rd b) 64
    let k := clampGrant (p.rd c) 32
    let p' := ((p.wr a (BitVec.ofNat 64 m)).wr b (BitVec.ofNat 64 n)).wr c (BitVec.ofNat 64 k)
    s.finish { p' with grant := { m, n, k } }

/-- SSTEP (R348). -/
def execSstep (mask : BitVec 8) (s : State) : Res :=
  s.withCur fun p =>
    if (List.range 8).any (fun j => mask.getLsbD j && !(p.stream j).canStep 1) then s.trapCur p 0x61
    else s.finish (p.stepStreams mask.toNat 1)

end Sys2Proof.Machine
end

