-- ==== Sys2Proof/Machine/Channels.lean ====
section
/-!
DEFINITION. The scalar channel instructions, and the journeys of tokens and credits (R147-R166, R171, R178, R179, R425, R442).
-/

namespace Sys2Proof.Machine

/-! ## SEND and RECV (R163-R166) -/

/-- SendScalar (R165): the credit is spent, and the token waits for the process's earlier stores to be launched. -/
def State.sendScalar (s : State) (i : Instr) (a : GReg) (q : Port) (tag : Byte) : Res :=
  s.withCur fun p => match s.portOk p q true with
    | .error c => s.trapCur p c
    | .ok (c, x) => s.unlessWaiting p i (
      if s.consumerRetired x then (s.finish p).countDiscard x 1
      else match x.prodAt s.cur q with
        | none => s.trapCur p 0x30
        | some (k, _) =>
          (s.finish { p with launches := p.launches ++
            [{ chan := c, prod := k, token := scalarToken x.wide (p.rd a) tag, after := p.storeSeq }] }).spend c k 1)

/-- SEND (R165). -/
def execSend (a : GReg) (q : Port) (s : State) : Res := s.sendScalar (.send a q) a q 0

/-- SENDC (R165). -/
def execSendc (a : GReg) (q : Port) (tag : BitVec 8) (s : State) : Res := s.sendScalar (.sendc a q tag) a q tag

/-- The cause a receive of a token raises (R166). -/
def recvCause (t : Token) (dataOnly : Bool) : Option Cause :=
  if dataOnly ∧ t.tag = 128 then some 0x32
  else if dataOnly ∧ t.tag ≠ 0 then some 0x31
  else if t.poison.headD false then some 0x40
  else none

/-- Receive (R166). -/
def State.receive (s : State) (i : Instr) (a : GReg) (q : Port) (dataOnly : Bool) : Res :=
  s.withCur fun p => match s.portOk p q false with
    | .error c => s.trapCur p c
    | .ok (c, x) => s.unlessWaiting p i (match x.buffer.head? with
      | none => s.parkCur p .channelRead i
      | some (_, t) => match recvCause t dataOnly with
        | some cause => s.trapCur p cause
        | none =>
          let p := p.wr a (BitVec.ofNat 64 (leNat (t.data.take 8)))
          let p := if dataOnly then p else p.wr (a + 1) (t.tag.setWidth 64)
          (s.finish p).consume c 1)

/-- RECV (R166). -/
def execRecv (a : GReg) (q : Port) (s : State) : Res := s.receive (.recv a q) a q false

/-- RECVN (R166). -/
def execRecvn (a : GReg) (q : Port) (s : State) : Res := s.receive (.recvn a q) a q true

/-! ## Tokens under way -/

/-- TOKEN_LAUNCH (R165): the process's oldest waiting token, once its earlier stores have left their FIFOs. -/
def State.tokenLaunch (s : State) (pid : Nat) : State :=
  match s.proc? pid with
  | none => s
  | some p => match p.launches with
    | [] => s
    | l :: rest =>
      if (s.tile p.tile).drained pid l.after then
        (s.setProc pid { p with launches := rest }).launch l.chan l.prod l.token
      else s

/-- TOKEN_LAUNCH. -/
def execTokenLaunch (pid : Nat) (s : State) : Res := .next (s.tokenLaunch pid)

/-- An outlet's vector fires when it passes from empty to non-empty (R442). -/
def State.outletSignal (s : State) (x : Chan) : State :=
  match x.consumer with
  | .host fn slot => if x.buffer.isEmpty then s.modFn fn (·.signal (4 + slot)) else s
  | _ => s

/-- A token leaves for the consumer's package as a packet of the circuit (R425). -/
def State.sendToken (s : State) (c pkg k : Nat) (t : Token) : State :=
  match (s.chan? c).bind (fun x => (x.circuitTo pkg).map (fun ci => (x, ci))) with
  | none => s
  | some (x, ci) =>
    let pkt : CircToken := { handle := x.handle c, prod := k, seq := ci.sendSeq, data := t.data, tag := t.tag
                             poison := t.poisonByte }
    { s with chans := mset s.chans c (x.modCircuit pkg (fun ci => { ci with sendSeq := ci.sendSeq + 1 }))
             vout := s.vout ++ [.token pkg pkt] }

/-- TOKEN_ARRIVAL (R156, R179): the oldest token of a producer reaches the consumer's buffer; at an end on another
package it leaves as a packet of the circuit, whose context it waits for (R425, R430). -/
def State.tokenArrival (s : State) (c k : Nat) : State :=
  match s.chan? c with
  | none => s
  | some x => match x.prods[k]? with
    | none => s
    | some d => match d.flight with
      | [] => s
      | t :: rest =>
        let x' := x.modProd k (fun d => { d with flight := rest })
        match x.consumer with
        | .remote pkg => if s.spilled.contains (.circuit c) then s else (s.modChan c (fun _ => x')).sendToken c pkg k t
        | _ => (s.outletSignal x).modChan c (fun _ => x'.arrive k t)

/-- TOKEN_ARRIVAL. -/
def execTokenArrival (chan prod : Nat) (s : State) : Res := .next (s.tokenArrival chan prod)

/-- An inlet's vector fires when its credits pass from 0 to nonzero (R442). -/
def State.inletSignal (s : State) (d : Producer) : State :=
  match d.src with
  | .host fn slot => if d.credits = 0 then s.modFn fn (·.signal (4 + slot)) else s
  | _ => s

/-- CREDIT_ARRIVAL (R155): a returned credit reaches its producer; toward another package it leaves as a packet of
the circuit, whose context it waits for (R425, R430). -/
def State.creditArrival (s : State) (c k : Nat) : State :=
  match s.chan? c with
  | none => s
  | some x => match x.prods[k]? with
    | none => s
    | some d =>
      if d.returning = 0 || (s.spilled.contains (.circuit c) && (match d.src with
          | .remote _ => true
          | _ => false)) then s
      else match d.src with
        | .remote pkg => match x.circuitTo pkg with
          | none => s
          | some ci =>
            let n := min d.returning 16
            let pkt : CircCredit := { handle := x.handle c, prod := k, seq := ci.creditSend, count := n }
            { s with
              chans := mset s.chans c ((x.modProd k (fun d => { d with returning := d.returning - n })).modCircuit pkg
                (fun ci => { ci with creditSend := ci.creditSend + 1 }))
              vout := s.vout ++ [.credit pkg pkt] }
        | _ => (s.inletSignal d).modChan c (fun x => x.modProd k (fun d =>
            { d with returning := d.returning - 1, credits := d.credits + 1, received := d.received + 1 }))

/-- CREDIT_ARRIVAL. -/
def execCreditArrival (chan prod : Nat) (s : State) : Res := .next (s.creditArrival chan prod)

/-- SPILL_REFILL (R179): a free slot on the tile takes the oldest spilled token. -/
def Chan.refill (x : Chan) : Chan :=
  match x.spill with
  | [] => x
  | t :: rest => if x.buffer.length < x.slots then { x with buffer := x.buffer ++ [t], spill := rest } else x

/-- SPILL_REFILL. -/
def execSpillRefill (chan : Nat) (s : State) : Res := .next (s.modChan chan (·.refill))

/-- GROWTH_CREDIT_ARRIVAL (R178): granted credits reach a producer; they enter no counter. -/
def execGrowthCreditArrival (chan prod : Nat) (s : State) : Res :=
  .next (s.modChan chan (fun x => x.modProd prod (fun d => { d with credits := d.credits + d.growing, growing := 0 })))

end Sys2Proof.Machine
end

