-- ==== Sys2Proof/Machine/Framing.lean ====
section
/-!
DEFINITION. Commands as they stand in a function's command channel: their framing, their order and their replies, and
what is answered without any command being performed (R448-R451, R455, R457).
-/

namespace Sys2Proof.Machine

/-- What the argument tokens of a header are: all there, still to come, or cut short after `n` of them. -/
inductive ArgScan where
  | done (args : List Word)
  | more
  | cut (n : Nat)
  deriving DecidableEq, Repr

/-- The word a token carries. -/
def Token.word (t : Token) : Word := BitVec.ofNat 64 (leNat (t.data.take 8))

/-- The `n` arguments behind a header, of which `k` have been seen (R450) (DEDUCED, log 58). -/
def scanArgs : Nat → Nat → List Token → ArgScan
  | 0, _, _ => .done []
  | _ + 1, _, [] => .more
  | n + 1, k, t :: l =>
    if t.tag = 0 then
      match scanArgs n (k + 1) l with
      | .done a => .done (t.word :: a)
      | r => r
    else .cut k

/-- NARG of a header (R448) (DEDUCED, log 58). -/
def headerArgs (h : Word) : Nat := h.toNat / 2 ^ 48 % 256

/-- OP of a header (R448). -/
def headerOp (h : Word) : Nat := h.toNat / 2 ^ 56

/-- Assigned command codes (R452). -/
def assignedOp (op : Nat) : Bool := (decide (1 ≤ op) && decide (op ≤ 0x0A)) || (decide (0x10 ≤ op) && decide (op ≤ 0x22))

/-- What stands at the head of a command channel (R450). -/
inductive Framed where
  | nothing
  | stray
  | cut (header : Word) (n : Nat)
  | command (header : Word) (args : List Word)
  deriving DecidableEq, Repr

/-- The head of a function's command channel, framed. -/
def Fn.framed (f : Fn) : Framed :=
  match f.cmdin with
  | [] => .nothing
  | h :: l =>
    if h.tag ≠ 2 then .stray
    else match scanArgs (headerArgs h.word) 0 l with
      | .done a => .command h.word a
      | .more => .nothing
      | .cut n => .cut h.word n

/-- The Prompter takes `n` tokens of a command channel; their credits return (R450, R442). -/
def Fn.takeTokens (f : Fn) (n : Nat) : Fn :=
  let f' := { f with cmdin := f.cmdin.drop n, cmdCredits := f.cmdCredits + n }
  if f.cmdCredits = 0 then f'.signal 2 else f'

/-- The function may begin a command: none is in progress, and REPLYOUT has room (R450). -/
def Fn.idle (f : Fn) : Bool := f.busy.isNone && f.replyWait.isEmpty && decide (f.reply.length < 64)

/-- Answers that need no command to be performed: stray tokens and cut commands FORMAT (1), unassigned codes BADOP (9);
`n` of them at most (R450, R451). -/
def State.settleCmds (s : State) (fn : Nat) : Nat → State
  | 0 => s
  | n + 1 =>
    let f := s.fn fn
    if !f.idle || !s.ready then s
    else match f.framed with
      | .nothing => s
      | .stray => ((s.modFn fn (·.takeTokens 1)).replyCmd fn 0 0 1 []).settleCmds fn n
      | .cut h k =>
        ((s.modFn fn (·.takeTokens (k + 1))).replyCmd fn h (h.toNat / 2 ^ 40) 1 []).settleCmds fn n
      | .command h a =>
        if assignedOp (headerOp h) then s
        else ((s.modFn fn (·.takeTokens (a.length + 1))).replyCmd fn h (h.toNat / 2 ^ 40) 9 []).settleCmds fn n

/-- A function's next command, where it is complete, takes its place among those that wait (R390). -/
def State.queueCmd (s : State) (fn : Nat) : State :=
  match (s.fn fn).framed with
  | .command _ _ => if s.cmdOrder.contains fn then s else { s with cmdOrder := s.cmdOrder ++ [fn] }
  | _ => s

/-- Every such answer that is due. -/
def State.settleFn (s : State) (fn : Nat) : State := (s.settleCmds fn (s.fn fn).cmdin.length).queueCmd fn

/-- A command in progress ends: its reply is sent, unless a function reset has come since (R457). -/
def State.finishBusy (s : State) (fn status : Nat) (res : List Word) : State :=
  match (s.fn fn).busy with
  | none => s
  | some b =>
    let s := s.modFn fn (fun f => { f with busy := none })
    (if b.mute then s else s.replyCmd fn b.header (b.header.toNat / 2 ^ 40) status res).settleFn fn

end Sys2Proof.Machine
end

