-- ==== Sys2Proof/Machine/Streams.lean ====
section
/-!
DEFINITION. The stream instructions and the stream engine (R332-R351), with the reading of records that words make
in several accesses (R346, R433).
-/

namespace Sys2Proof.Machine

/-! ## Records (R346, R433) -/

/-- A word that reads a record of `n` bytes at `t`, and goes on once it is there: the checks, then the read as a load
of the process (R346, R433). -/
def State.recordWord (s : State) (i : Instr) (t : Word) (n : Nat) (f : State → Proc → List Byte → State) : Res :=
  s.withCur fun p =>
    match p.readRecord i with
    | some b => s.unlessWaiting p i (f s p b)
    | none =>
      if t.toNat % 8 ≠ 0 then s.trapCur p 0x08 t
      else match s.waitOf s.cur p i with
        | some r => s.parkCur p r i
        | none =>
          let p := { p with pend := none, record := [] }
          if inDevice t then
            (s.parkCur p .memoryReply i).beginAccess s.cur { va := t, n := 8, kind := kRead, req := .read 8, rel := false }
          else match p.desc.spadCheck t n with
            | some c => s.trapCur p c t
            | none =>
              let (now, s) := s.grantedNow s.cur p.tile t.toNat n
              if !now then s.parkCur { p with pend := some .spad } .memoryReply i
              else match s.spadLoad p.tile t.toNat n with
                | (s, .error c) => s.trapCur p c t
                | (s, .ok b) =>
                  let p := { p with pend := some (.done (Reply.ack 0 (.proc s.cur))), record := b }
                  let s := s.setCur p
                  s.unlessWaiting p i (f s p b)

/-- The record a word has read is done with. -/
def Proc.dropRecord (p : Proc) : Proc := { p with pend := none, record := [] }

/-! ## SCONF (R334-R338, R346) -/

/-- Heads a bound record names. -/
def StreamCtx.headList (t : StreamCtx) : List Nat := (List.range t.heads).map (t.head + ·)

/-- Buffer groups a bound record names. -/
def StreamCtx.groupList (t : StreamCtx) : List Nat := (List.range (t.heads * t.depth)).map (t.g0 + ·)

/-- Row 1 of R335: fields that are malformed, `res` the doubleword at offset 40. -/
def StreamCtx.malformed (t : StreamCtx) (res : Nat) : Bool :=
  let mode := t.modeCode
  let lay := t.layout
  let mx := t.etCode == 13
  decide (t.bits.toNat / 2 ^ 18 ≠ 0) || res != 0 || decide (3 < lay) || mode == 3
  || (!t.permBit && t.vi != 0) || (mode != 0 && lay != 3 && t.aux != 0)
  || (lay != 1 && lay != 2 && t.stride != 0) || decide (13 < t.etCode) || mx != (lay == 3)
  || (mode == 0 && (decide (2 ≤ lay) || t.depth != 0 || t.head != 0 || t.permBit || t.sen))
  || (mode != 0 && (t.depth == 0 || decide (8 < t.depth)))
  || (if lay = 2 then decide (t.fields < 2) || decide (8 < t.fields) else t.fields != 0)
  || decide (8 < t.head + t.heads) || (t.permBit && !(lay == 2 && mode == 1))

/-- Row 2 of R335: misaligned fields. -/
def StreamCtx.misaligned (t : StreamCtx) : Bool :=
  if t.layout = 3 then t.base.toNat % 16 != 0 || t.count % 32 != 0
  else t.base.toNat % t.z != 0 || (t.modeCode == 0 && t.aux.toNat % t.z != 0)
    || ((t.layout == 1 || t.layout == 2) && t.stride.toNat % t.z != 0)

/-- Row 5 of R335: a group or head out of range, or used by another bound stream. -/
def Proc.clashes (p : Proc) (j : Nat) (t : StreamCtx) : Bool :=
  t.modeCode != 0 && (decide (p.geom.nbufs < t.g0 + t.heads * t.depth)
    || (List.range 8).any (fun k => k != j && (p.stream k).bound
        && ((p.stream k).headList.any t.headList.contains || (p.stream k).groupList.any t.groupList.contains)))

/-- The cause SCONF refuses a record with (R335) (DEDUCED, log 35). -/
def Proc.recordCause (p : Proc) (j : Nat) (t : StreamCtx) (res : Nat) : Option Cause :=
  if t.malformed res || t.misaligned then some 0x60
  else if (t.den && decide (p.desc.evcnt ≤ t.dbit)) || (t.sen && decide (p.desc.evcnt ≤ t.sbit)) then some 0x64
  else if t.permBit && decide (p.geom.nregs ≤ t.vi) then some 0x07
  else if p.clashes j t then some 0x63
  else none

/-- P of R338. -/
def Proc.permOf (p : Proc) (vi : Nat) : List Nat :=
  (List.range 64).map (fun k => p.rowBytes (vi * p.geom.lrows) k 1 % 64)

/-- A buffer group zeroed, poison clear (R337, R340). -/
def Proc.zeroGroup (p : Proc) (g : Nat) : Proc :=
  let lo := (p.geom.nregs + g) * p.geom.lrows
  let keep := fun (r : Nat) => decide (r < lo) || decide (lo + p.geom.lrows ≤ r)
  { p with rows := p.rows.filter (fun x => keep x.1), rowPoison := p.rowPoison.filter (fun x => keep x.1) }

/-- Buffer groups a record names, zeroed (R337). -/
def Proc.zeroGroups (p : Proc) (t : StreamCtx) : Proc := t.groupList.foldl (fun p g => p.zeroGroup g) p

/-- The stream configured with a record that passes: a bound transfer that has ended goes on in the engine, and the record's
groups are zeroed before the stream uses them, at once where no such transfer is in the way (R333, R335, R337, R338). -/
def Proc.configureStream (p : Proc) (j : Nat) (r : StreamCtx) : Proc :=
  let old := p.stream j
  let mode : StreamMode := match r.modeCode with
    | 1 => .load
    | 2 => .store
    | _ => .copy
  let t := { r with mode, conf := old.conf + 1, lrows := p.geom.lrows
                    perm := if r.permBit then p.permOf r.vi else [], lastId := old.lastId, fault := old.fault
                    watermark := old.watermark, opened := !p.oldStrips j r }
  let p := { p with streams := vput p.streams j t
                    closing := if old.modeCode != 0 && old.unfinished then p.closing ++ [(j, old)] else p.closing }
  if r.modeCode = 0 || !t.opened then p else p.zeroGroups t

/-- SCONF (R346). -/
def execSconf (b : GReg) (stream : BitVec 3) (s : State) : Res :=
  match s.proc? s.cur with
  | none => .fault .noProcess
  | some p0 =>
    s.recordWord (.sconf b stream) (p0.rd b) 48 fun s p bytes =>
      let j := stream.toNat
      let t := p.stream j
      let r := recordOf bytes
      if t.bound || (t.mode == .copy && !t.kicks.isEmpty) then s.trapCur p 0x61
      else match p.recordCause j r (leNat (bytes.drop 40)) with
        | some c => s.trapCur p c
        | none => s.finish (p.dropRecord.configureStream j r)

/-! ## Completion and availability (R340-R342) -/

/-- An event bit of a process's window set (R353). -/
def State.setEvBit (s : State) (p : Proc) (n : Nat) : State := s.modTile p.tile (fun t => t.evSet (p.desc.evBit n))

/-- Ended transfers of a stream that the engine has finished are forgotten. -/
def Proc.tidy (p : Proc) (j : Nat) : Proc := { p with closing := p.closing.filter (fun x => x.1 != j || x.2.unfinished) }

/-- A transfer completes: the watermark, then DBIT (R342). -/
def State.completeKick (s : State) (pid j id : Nat) : State :=
  match s.proc? pid with
  | none => s
  | some p =>
    let t := p.live j
    let s := s.setProc pid (((p.modLive j (fun t => { t with kicks := t.kicks.filter (fun k => k.id != id) })).modStream j
      (fun t => { t with watermark := id })).tidy j)
    if t.den then s.setEvBit p t.dbit else s

/-- The strip with an index. -/
def StreamCtx.strip? (t : StreamCtx) (k : Nat) : Option Strip := t.strips.find? (fun x => x.index == k)

/-- A strip replaced, or added. -/
def StreamCtx.putStrip (t : StreamCtx) (x : Strip) : StreamCtx :=
  { t with strips := t.strips.filter (fun y => y.index != x.index) ++ [x] }

/-- Strips of the context the engine serves become available: SBIT once for them together (R340). -/
def State.avail (s : State) (pid j : Nat) (ks : List Nat) : State :=
  match s.proc? pid with
  | none => s
  | some p =>
    if ks.isEmpty then s
    else
      let t := p.live j
      let t' := ks.foldl (fun t k => t.putStrip { index := k, available := true, filled := 0, released := false }) t
      let s := s.setProc pid (p.modLive j (fun _ => t'))
      if t.sen then s.setEvBit p t.sbit else s

/-- The first strips of a kicked store stream, handed back (R340). -/
def State.firstStrips (s : State) (pid j : Nat) : State :=
  match s.proc? pid with
  | none => s
  | some p =>
    let t := p.live j
    s.avail pid j ((List.range (min t.depth t.stripCount)).filter (fun k => decide (t.done ≤ k)))

/-! ## SKICK, STWAIT, SDRAIN (R347, R349, R350) -/

/-- The cause SKICK of a stream raises (R347): 0x66 of a faulted stream, whatever else holds of it, until SDRAIN (R344)
(DEDUCED, log 35). -/
def Proc.kickCause (p : Proc) (j o : Nat) : Option Cause :=
  let t := p.stream j
  if t.fault then some 0x66
  else if t.mode == .unconfigured || (t.bound && t.kicked) then some 0x61
  else if t.layout = 3 ∧ t.mode ≠ .unconfigured ∧ o % 32 ≠ 0 then some 0x60
  else if 2 ^ 48 - 1 < t.lastId + 1 then some 0x67
  else none

/-- A transfer kicked (R341, R347): it completes at once where it has no elements; a store stream's first strips are
handed back. -/
def State.kick (s : State) (pid j o : Nat) : State :=
  match s.proc? pid with
  | none => s
  | some p =>
    let t := p.stream j
    let id := t.lastId + 1
    let k : Kick := { id, offset := o, started := false, next := 0, age := s.reqAge }
    let first := !p.closing.any (fun x => x.1 == j)
    let s := { s.setProc pid (p.modStream j (fun t => { t with lastId := id, kicked := true, kicks := t.kicks ++ [k] })) with
               reqAge := s.reqAge + 1 }
    if t.count = 0 && first then s.completeKick pid j id
    else if t.modeCode = 2 && t.opened && first then s.firstStrips pid j
    else s

/-- SKICK (R347): a release at system scope. -/
def execSkick (b : GReg) (stream : BitVec 3) (s : State) : Res :=
  s.withCur fun p =>
    let j := stream.toNat
    let i := Instr.skick b stream
    let o := (p.rd b).toNat
    if p.streamHeld j then s.unlessWaiting p i s
    else match p.kickCause j o with
      | some c => s.trapCur p c
      | none => s.unlessWaiting p i (s.released fun s p => (s.finish p).kick s.cur j o)

/-- The watermark word (R342). -/
def StreamCtx.word (t : StreamCtx) : Word := BitVec.ofNat 64 (t.fault.toNat * 2 ^ 63 + t.watermark)

/-- STWAIT (R349). -/
def execStwait (a b : GReg) (stream : BitVec 3) (s : State) : Res :=
  s.withCur fun p =>
    let t := p.stream stream.toNat
    if t.lastId < (p.rd b).toNat % 2 ^ 48 then s.trapCur p 0x61
    else s.unlessWaiting p (.stwait a b stream) (s.finishWr p a t.word)

/-- Strips of a context from its oldest on that have been released, at most `n`. -/
def Proc.released (p : Proc) (j : Nat) (t : StreamCtx) : Nat → Nat → Nat
  | _, 0 => 0
  | k, n + 1 => if p.letGo j t k then p.released j t (k + 1) n + 1 else 0

/-- What an SDRAIN leaves of a transfer that has ended: of a store stream the strips already released, to be written; no
other strip (R350, R357). -/
def Proc.drained (p : Proc) (j : Nat) (t : StreamCtx) : Option StreamCtx :=
  if p.owes j t then some { t with limit := some (t.done + p.released j t t.done (t.last - t.done)) } else none

/-- The present record of a stream after SDRAIN (R350). -/
def StreamCtx.drain (t : StreamCtx) (gone : Bool) : StreamCtx :=
  { t with mode := .unconfigured, conf := t.conf + 1, watermark := if gone then t.lastId else t.watermark, fault := false
           kicks := [], kicked := false, strips := [], done := t.stripCount, faulting := none, deadFrom := none, limit := none }

/-- SDRAIN of a stream whose wait is over: unreleased strips are discarded, ID rises, FAULT is cleared, and the stream is
unconfigured. Where the stream was unconfigured and an ended store transfer still has released strips, those are written
and ID follows (R350, R357) (DEDUCED, log 35). -/
def Proc.drain (p : Proc) (j : Nat) : Proc :=
  let left := ((p.contexts j).filter (fun t => t.modeCode != 0)).filterMap (p.drained j)
  let rest := p.closing.filter (fun x => x.1 != j)
  { p with closing := rest ++ left.map (fun t => (j, t)) }.modStream j (fun t => t.drain left.isEmpty)

/-! ## Elements (R336-R338, R343) -/

/-- Address of the part `f` (a field, or an MX scale) of the element at index `k` of the array (R336). -/
def StreamCtx.addr (t : StreamCtx) (k f : Nat) : Word :=
  match t.layout with
  | 0 => t.base + BitVec.ofNat 64 (t.z * k)
  | 1 => t.base + t.stride * BitVec.ofNat 64 k
  | 2 => t.base + t.stride * BitVec.ofNat 64 k + BitVec.ofNat 64 (t.z * f)
  | _ => if f = 0 then t.base + BitVec.ofNat 64 (16 * (k / 32)) else t.aux + BitVec.ofNat 64 (k / 32)

/-- Pieces an element, or a block of 32 MX elements, is moved in. -/
def StreamCtx.parts (t : StreamCtx) : Nat := if t.layout = 3 then 2 else t.heads

/-- Elements that move together. -/
def StreamCtx.grain (t : StreamCtx) : Nat := if t.layout = 3 then 32 else 1

/-- Bytes of a piece. -/
def StreamCtx.partBytes (t : StreamCtx) (f : Nat) : Nat := if t.layout = 3 then (if f = 0 then 16 else 1) else t.z

/-- Pieces of a strip. -/
def StreamCtx.pieces (t : StreamCtx) : Nat := t.stripLen / t.grain * t.parts

/-- The transfer index element `e` of strip `k` holds (R337, R338). -/
def StreamCtx.indexOf (t : StreamCtx) (k e : Nat) : Nat :=
  k * t.stripLen + (if t.permBit then 64 * (e / 64) + t.perm.getD (e % 64) 0 else e)

/-- What became of an engine's access. -/
inductive Moved where
  | got (bytes : List Byte) (psn : Bool)
  | wait
  | bad (cause : Cause)
  deriving DecidableEq, Repr

/-- A line store performed in the scratchpad at once, by a client without a FIFO (R241, R245). -/
def State.spadWriteNow (s : State) (tile a : Nat) (bytes : List Byte) (psn : List Bool) : State :=
  let e : SpadStore :=
    { seq := 0, line := a / 64 * 64, enable := lineEnable a bytes.length
      bytes := BitVec.ofNat 512 (leNat bytes * 2 ^ (8 * (a % 64))), poison := BitVec.ofNat 8 (linePoison a psn)
      vec := true, rel := false }
  let t := s.tile tile
  let t := if t.writeReady e.line then t else t.parityUpdate (spSlice a)
  let (t, l) := t.writeLine e
  (s.setTile tile t).noteFailed tile l

/-- Where an engine's access goes, or the cause it meets (R261, R306, R312, R336). -/
def State.enginePlace (s : State) (p : Proc) (a : Word) (n kind : Nat) : Except Cause (Option Place) :=
  if inDevice a then
    if !canonDev a then .error 0x24
    else match s.tileTranslate p.tile p.tenant a.toNat kind with
      | .error (c, _) => .error c
      | .ok place => .ok (some place)
  else match p.desc.spadCheck a n with
    | some c => .error c
    | none => .ok none

/-- A line request of an engine sent (R298, R299). -/
def State.engineAsk (s : State) (pid j : Nat) (p : Proc) (place : Place) (kind : ReqKind) : State × Moved :=
  ((s.sendTo (.engine pid j) p.tenant place kind p.eff).2, .wait)

/-- An engine's read; a word whose reconstruction failed arrives poisoned (R250). `back` is the reply to its request. -/
def State.engineRead (s : State) (pid j : Nat) (p : Proc) (a : Word) (n : Nat) (back : Option Reply) : State × Moved :=
  match back with
  | some r => (s, match r.cause with
    | some c => .bad c
    | none => .got r.bytes (r.poison.any id))
  | none => match s.enginePlace p a n kRead with
    | .error c => (s, .bad c)
    | .ok none =>
      let (s, b, ps, _) := s.spadRead p.tile a.toNat n
      (s, .got b (ps.any id))
    | .ok (some place) => s.engineAsk pid j p place (.read n)

/-- An engine's write. -/
def State.engineWrite (s : State) (pid j : Nat) (p : Proc) (a : Word) (b : List Byte) (psn : Bool) (back : Option Reply) :
    State × Moved :=
  match back with
  | some r => (s, match r.cause with
    | some c => .bad c
    | none => .got [] false)
  | none => match s.enginePlace p a b.length kWrite with
    | .error c => (s, .bad c)
    | .ok none => (s.spadWriteNow p.tile a.toNat b (b.map (fun _ => psn)), .got [] false)
    | .ok (some place) => s.engineAsk pid j p place (.write b (b.map (fun _ => psn)))

/-- One element of a copy read and then written (R343); a reply without bytes answers its write. -/
def State.copyElem (s : State) (pid j : Nat) (p : Proc) (k : Nat) (back : Option Reply) : State × Moved :=
  let t := p.live j
  let dst := t.aux + BitVec.ofNat 64 (t.z * k)
  let write := back.any (fun r => r.cause.isNone && r.bytes.isEmpty)
  if write then (s, .got [] false)
  else match s.engineRead pid j p (t.addr k 0) t.z back with
    | (s, .got b psn) => s.engineWrite pid j p dst b psn none
    | (s, m) => (s, m)

/-- A piece of a load strip put in its group (R90, R337). -/
def Proc.putPart (p : Proc) (t : StreamCtx) (k e f : Nat) (b : List Byte) (psn : Bool) : Proc :=
  if t.layout = 3 then
    let base := (p.geom.nregs + t.groupOf 0 k) * t.lrows
    let u := e / 32
    let old := p.slotAt base u
    if f = 0 then p.putSlot base u (old % 2 ^ 16 + leNat b * 2 ^ 16) psn
    else p.putSlot base u (old / 2 ^ 8 * 2 ^ 8 + leNat b % 256) (p.slotPsn base u || psn)
  else p.putElem ((p.geom.nregs + t.groupOf f k) * t.lrows) t.z e (leNat b) psn

/-- A piece of a store strip, taken from its group. -/
def Proc.takePart (p : Proc) (t : StreamCtx) (k e f : Nat) : List Byte × Bool :=
  if t.layout = 3 then
    let base := (p.geom.nregs + t.groupOf 0 k) * t.lrows
    let x := p.slotAt base (e / 32)
    (if f = 0 then leBytes 16 (x / 2 ^ 16) else leBytes 1 x, p.slotPsn base (e / 32))
  else
    let base := (p.geom.nregs + t.groupOf f k) * t.lrows
    (leBytes t.z (p.elem base t.z e), p.elemPsn base t.z e)

/-- The zero piece delivered at or beyond N (R226, R337). -/
def StreamCtx.zeroPart (t : StreamCtx) (f : Nat) : List Byte := List.replicate (t.partBytes f) 0

/-! ## The engine (R340-R345) -/

/-- The engine serves the process: it is there, not captured for service code, and no SNAPSHOT is being taken
(R117, R454). -/
def State.engineRuns (s : State) (p : Proc) : Bool :=
  s.snapshot.isNone && !p.priv && (match p.st with
    | .ready => true
    | .parked _ => true
    | .trapped => true
    | _ => false)

/-- The strip a load stream fills next (R340). -/
def StreamCtx.fillNext (t : StreamCtx) : Option Strip :=
  let hi := min (t.done + t.depth) (min t.last (t.deadFrom.getD t.last))
  ((List.range (hi - t.done)).map (t.done + ·)).findSome? (fun k => match t.strip? k with
    | none => some { index := k, available := false, filled := 0, released := false }
    | some x => if x.available || decide (t.pieces ≤ x.filled) then none else some x)

/-- The transfer faults at an access (R344): strips that hold nothing yet, from the failing one on, stay so. -/
def StreamCtx.fail (t : StreamCtx) (id : Nat) (cause : Cause) (a : Word) (k : Nat) : StreamCtx :=
  { t with faulting := some (cause, a, id)
           deadFrom := if t.modeCode = 1 then some k
                       else if t.modeCode = 2 then some (t.strips.foldl (fun m x => max m (x.index + 1)) t.done) else none }

/-- One piece of a load strip (R343). -/
def State.fillPart (s : State) (pid j : Nat) (p : Proc) (kk : Kick) (x : Strip) (back : Option Reply) : State :=
  let t := p.live j
  let e := x.filled / t.parts * t.grain
  let f := x.filled % t.parts
  let i := t.indexOf x.index e
  let put := fun (s : State) (b : List Byte) (psn : Bool) => s.modProc pid (fun p =>
    (p.putPart t x.index e f b psn).modLive j (fun t => t.putStrip { x with filled := x.filled + 1 }))
  if t.count ≤ i then put s (t.zeroPart f) false
  else
    let a := t.addr (kk.offset + i) f
    match s.engineRead pid j p a (t.partBytes f) back with
    | (s, .got b psn) => put s b psn
    | (s, .wait) => s
    | (s, .bad c) => (s.clearDenied p.tile).modProc pid (fun p => p.modLive j (fun t => t.fail kk.id c a x.index))

/-- The first piece of an element of a store strip that a check turns away: its address and cause. -/
def State.badPart (s : State) (p : Proc) (t : StreamCtx) (k : Nat) : Option (Word × Cause) :=
  (List.range t.parts).findSome? (fun f => match s.enginePlace p (t.addr k f) (t.partBytes f) kWrite with
    | .error c => some (t.addr k f, c)
    | .ok _ => none)

/-- One piece of a released store strip written, in ascending order (R340, R343); every piece of an element is checked
before the first is written (R344). -/
def State.drainPart (s : State) (pid j : Nat) (p : Proc) (kk : Kick) (x : Strip) (back : Option Reply) : State :=
  let t := p.live j
  let e := x.filled / t.parts * t.grain
  let f := x.filled % t.parts
  let i := t.indexOf x.index e
  let done := fun (s : State) => s.modProc pid (fun p => p.modLive j (fun t => t.putStrip { x with filled := x.filled + 1 }))
  let fail := fun (s : State) (a : Word) (c : Cause) => (s.clearDenied p.tile).modProc pid (fun p => p.modLive j (fun t => t.fail kk.id c a x.index))
  if t.count ≤ i then done s
  else match if f = 0 ∧ back.isNone then s.badPart p t (kk.offset + i) else none with
    | some (a, c) => fail s a c
    | none =>
      let a := t.addr (kk.offset + i) f
      let (b, psn) := p.takePart t x.index e f
      match s.engineWrite pid j p a b psn back with
      | (s, .got _ _) => done s
      | (s, .wait) => s
      | (s, .bad c) => fail s a c

/-- SDRAIN (R350). -/
def execSdrain (stream : BitVec 3) (s : State) : Res :=
  s.withCur fun p => s.unlessWaiting p (.sdrain stream) (
    let q := p.drain stream.toNat
    let s := s.finish q
    if q.closing.any (fun x => x.1 == stream.toNat) then s else s.forgetSource (.engine s.cur stream.toNat))

/-- A context of stream `j` has a line request to make: a kicked transfer without a fault, no request under way, and an
element to move (R345). -/
def State.engineAsks (s : State) (pid j : Nat) (p : Proc) : Bool :=
  let t := p.live j
  match t.kicks.head? with
  | none => false
  | some kk => s.engineRuns p && t.faulting.isNone && kk.started && !s.sourceBusy (.engine pid j)
    && (match t.modeCode with
      | 0 => decide (kk.next < t.count)
      | 1 => t.opened && t.fillNext.isSome
      | _ => (t.strip? t.done).any (fun x => x.released && decide (x.filled < t.pieces) && !t.fault))

/-- Of two contexts of a hart, the first is served before the second: the higher effective priority, then the older kick
(R345, R390). -/
def State.hartBefore (s : State) (j : Nat) (a b : Nat) : Bool :=
  match s.proc? a, s.proc? b with
  | some p, some q =>
    let age := fun (p : Proc) => ((p.live j).kicks.head?.map (·.age)).getD 0
    decide (q.eff < p.eff) || (p.eff == q.eff && (decide (age p < age q) || (age p == age q && decide (a < b))))
  | _, _ => false

/-- The hart of stream `j` on the process's tile serves another process's context first. -/
def State.hartTaken (s : State) (pid j : Nat) (p : Proc) : Bool :=
  s.procs.any (fun x => x.1 != pid && x.2.tile == p.tile && s.engineAsks x.1 j x.2 && s.hartBefore j x.1 pid)

/-- The first and the last byte of the accesses of an engine's next element. -/
def StreamCtx.touched (t : StreamCtx) (kk : Kick) : List Word :=
  let ends := fun (a : Word) (n : Nat) => [a, a + BitVec.ofNat 64 (n - 1)]
  let parts := fun (k i : Nat) => if t.count ≤ i then [] else
    (List.range t.parts).flatMap (fun f => ends (t.addr k f) (t.partBytes f))
  match t.modeCode with
  | 0 => if t.count ≤ kk.next then [] else
    ends (t.addr (kk.offset + kk.next) 0) t.z ++ ends (t.aux + BitVec.ofNat 64 (t.z * (kk.offset + kk.next))) t.z
  | 1 => match t.fillNext with
    | none => []
    | some x =>
      let i := t.indexOf x.index (x.filled / t.parts * t.grain)
      parts (kk.offset + i) i
  | _ => match t.strip? t.done with
    | none => []
    | some x =>
      let i := t.indexOf x.index (x.filled / t.parts * t.grain)
      parts (kk.offset + i) i

/-- ENGINE_TRANSFER (R343): a kicked transfer starts, with its acquire of the kick word, or goes one access further
(DEDUCED, log 36). -/
def State.engineTransfer (s : State) (pid j : Nat) : State :=
  match s.proc? pid with
  | none => s
  | some p =>
    let t := p.live j
    match t.kicks.head? with
    | none => s
    | some kk =>
      if !s.engineRuns p || t.faulting.isSome || s.sourceWaits (.engine pid j) then s
      else if !kk.started then
        s.setProc pid (p.modLive j (fun t => { t with kicks := t.kicks.modify 0 (fun k => { k with started := true }) }))
      else
        let (s, back) := match s.takeSource (.engine pid j) with
          | some (s, r) => (s, some r)
          | none => (s, none)
        let pages := s.unknown p (t.touched kk)
        if back.isNone && s.hartTaken pid j p then s
        else if back.isNone && !pages.isEmpty then s.want p pages
        else match t.modeCode with
        | 0 =>
          if t.count ≤ kk.next then s
          else match s.copyElem pid j p (kk.offset + kk.next) back with
            | (s, .got _ _) => s.modProc pid (fun p => p.modLive j (fun t =>
                { t with kicks := t.kicks.modify 0 (fun k => { k with next := k.next + 1 }) }))
            | (s, .wait) => s
            | (s, .bad c) => (s.clearDenied p.tile).modProc pid (fun p => p.modLive j (fun t => t.fail kk.id c (t.addr (kk.offset + kk.next) 0) 0))
        | 1 => if !t.opened then s
          else match t.fillNext with
          | none => s
          | some x => s.fillPart pid j p kk x back
        | _ => match t.strip? t.done with
          | none => s
          | some x => if x.released && decide (x.filled < t.pieces) && !t.fault then s.drainPart pid j p kk x back else s

/-- ENGINE_TRANSFER. -/
def execEngineTransfer (pid : Nat) (stream : BitVec 3) (s : State) : Res := .next (s.engineTransfer pid stream.toNat)

/-- A record whose groups an ended transfer was in, once that has gone: its groups are zeroed, and the first strips of a
kicked store stream handed back (R337, R340). -/
def State.openStream (s : State) (pid j : Nat) (p : Proc) : State :=
  let t := p.stream j
  let p := (p.zeroGroups t).modStream j (fun t => { t with opened := true })
  let s := s.setProc pid p
  if t.modeCode = 2 ∧ t.kicked then s.firstStrips pid j else s

/-- STRIP_FILL (R340): every element of a load strip has arrived, and the strip becomes available. -/
def State.stripFill (s : State) (pid j : Nat) : State :=
  match s.proc? pid with
  | none => s
  | some p =>
    let t := p.live j
    if !t.opened then if p.oldStrips j t then s else s.openStream pid j p
    else match t.strips.find? (fun x => t.modeCode == 1 && !x.available && decide (t.pieces ≤ x.filled)) with
    | none => s
    | some x => s.avail pid j [x.index]

/-- STRIP_FILL. -/
def execStripFill (pid : Nat) (stream : BitVec 3) (s : State) : Res := .next (s.stripFill pid stream.toNat)

/-- A strip dealt with: a load strip's group may be refilled; of a store stream without a fault the strip DEPTH later
becomes available (R340, R344). -/
def State.passStrip (s : State) (pid j : Nat) : State :=
  match s.proc? pid with
  | none => s
  | some p =>
    let t := p.live j
    let s := s.setProc pid (p.modLive j (fun t =>
      { t with done := t.done + 1, strips := t.strips.filter (fun x => x.index != t.done) }))
    let k := t.done + t.depth
    let s := if t.modeCode = 2 ∧ k < t.last ∧ t.deadFrom = none then s.avail pid j [k] else s
    s.modProc pid (·.tidy j)

/-- STRIP_RELEASE (R340, R344): the oldest strip, once stepped past and used by no block, is refilled or due to be
written; with a fault it is discarded unwritten. A load strip is read whole before its group is refilled, used or not
(R343) (DEDUCED, log 36). -/
def State.stripRelease (s : State) (pid j : Nat) : State :=
  match s.proc? pid with
  | none => s
  | some p =>
    let t := p.live j
    if !t.open || !p.stripReleased j t.done || !s.engineRuns p || s.sourceBusy (.engine pid j) then s
    else if t.modeCode = 2 ∧ t.fault then s.passStrip pid j
    else if !t.kicked then
      if t.mode = .unconfigured ∧ !p.streamHeld j then
        s.setProc pid ((p.modLive j (fun t => { t with done := t.stripCount })).tidy j)
      else s
    else match t.strip? t.done with
      | none => if t.modeCode = 1 ∧ t.deadFrom.any (fun d => decide (d ≤ t.done)) then s.passStrip pid j else s
      | some x =>
        if t.modeCode = 1 then
          if x.available || t.deadFrom.any (fun d => decide (d ≤ t.done)) then s.passStrip pid j else s
        else s.setProc pid (p.modLive j (fun t => t.putStrip { x with released := true }))

/-- STRIP_RELEASE. -/
def execStripRelease (pid : Nat) (stream : BitVec 3) (s : State) : Res := .next (s.stripRelease pid stream.toNat)

/-- STRIP_WRITEBACK (R340): a store strip written whole; its groups are zeroed and handed back. -/
def State.stripWriteback (s : State) (pid j : Nat) : State :=
  match s.proc? pid with
  | none => s
  | some p =>
    let t := p.live j
    match t.strip? t.done with
    | none => s
    | some x =>
      if t.modeCode = 2 ∧ x.released ∧ t.pieces ≤ x.filled ∧ !t.fault then
        let p := (List.range t.heads).foldl (fun p f => p.zeroGroup (t.groupOf f x.index)) p
        (s.setProc pid p).passStrip pid j
      else s

/-- STRIP_WRITEBACK. -/
def execStripWriteback (pid : Nat) (stream : BitVec 3) (s : State) : Res := .next (s.stripWriteback pid stream.toNat)

/-- TRANSFER_COMPLETE (R341, R342). -/
def State.transferComplete (s : State) (pid j : Nat) : State :=
  match s.proc? pid with
  | none => s
  | some p =>
    let t := p.live j
    match t.kicks.head? with
    | none => s
    | some kk =>
      let past := if t.modeCode = 0 then decide (t.count ≤ kk.next) else decide (t.last ≤ t.done)
      if past && t.faulting.isNone && !t.fault then s.completeKick pid j kk.id else s

/-- TRANSFER_COMPLETE. -/
def execTransferComplete (pid : Nat) (stream : BitVec 3) (s : State) : Res := .next (s.transferComplete pid stream.toNat)

/-- A context whose transfer has faulted (R344): a load stream's transfer stays, for the strips below the fault are filled
again at a resumption (R360); a store stream's and a copy's goes, with every later kick. -/
def StreamCtx.faulted (t : StreamCtx) (id : Nat) : StreamCtx :=
  { t with fault := true, watermark := id, kicks := if t.modeCode = 1 then t.kicks.take 1 else [], faulting := none }

/-- TRANSFER_FAULT (R344): the mailbox store marks the watermark, later kicks are discarded, and a notice goes out. -/
def State.transferFault (s : State) (pid j : Nat) : State :=
  match s.proc? pid with
  | none => s
  | some p => match (p.live j).faulting with
    | none => s
    | some (cause, _, id) =>
      let present := fun (t : StreamCtx) =>
        if p.closing.any (fun x => x.1 == j) then
          { t with fault := true, watermark := id, kicks := [], deadFrom := if t.kicked then some t.done else t.deadFrom }
        else t
      (s.setProc pid (((p.modLive j (fun t => t.faulted id)).modStream j present).tidy j)).notice pid (noticeWord cause 1 j id)

/-- TRANSFER_FAULT. -/
def execTransferFault (pid : Nat) (stream : BitVec 3) (s : State) : Res := .next (s.transferFault pid stream.toNat)

end Sys2Proof.Machine
end

