-- ==== Sys2Proof/Machine/Events.lean ====
section
/-!
DEFINITION. Event bits, loop tasks, cue slots, box offices and the wake of a parked process (R114, R328-R330,
R352-R360, R380-R385).
-/

namespace Sys2Proof.Machine

/-! ## EVSET, EVCLR, EVWAIT (R352-R355) -/

/-- EVSET (R354, R355): a release, then the bits. -/
def execEvset (b : GReg) (s : State) : Res :=
  s.withCur fun p => match p.evSpec (p.rd b) with
    | none => s.trapCur p 0x64
    | some m => s.released fun s p => (s.finish p).modTile p.tile (·.evSet m)

/-- EVCLR (R354). -/
def execEvclr (b : GReg) (s : State) : Res :=
  s.withCur fun p => match p.evSpec (p.rd b) with
    | none => s.trapCur p 0x64
    | some m => (s.finish p).modTile p.tile (·.evClear m)

/-- EVWAIT (R354): a test that succeeds consumes its bits. -/
def execEvwait (b : GReg) (s : State) : Res :=
  s.withCur fun p => match p.evSpec (p.rd b) with
    | none => s.trapCur p 0x64
    | some m => s.unlessWaiting p (.evwait b) ((s.finish p).modTile p.tile (·.evClear m))

/-! ## Loop tasks (R356-R359) -/

/-- The words of a loop body up to its VSTOP, at most `n`: none where it has none; or the fault met. -/
def State.bodyWords (s : State) (p : Proc) (a : Word) : Nat → Except VStop (Option (List VWord))
  | 0 => .ok none
  | n + 1 => match s.fetchVector p a with
    | .error e => .error e
    | .ok w =>
      if vopOf w = 1 then .ok (some [w])
      else match s.bodyWords p (a + 8) n with
        | .ok (some l) => .ok (some (w :: l))
        | r => r

/-- The addresses of the words a registration reads: to the VSTOP or the word that is not to be had. -/
def State.bodyAddrs (s : State) (p : Proc) (a : Word) : Nat → List Word
  | 0 => []
  | n + 1 => match s.fetchVector p a with
    | .error _ => [a]
    | .ok w => if vopOf w = 1 then [a] else a :: s.bodyAddrs p (a + 8) n

/-- The checks of a registration (R357): the body's words, or the cause. -/
def State.loopBody (s : State) (p : Proc) (e : Entry) : Except VStop (List VWord) :=
  if e.addr.toNat % 8 ≠ 0 then .error { cause := 0x08, addr := e.addr, info := 0 }
  else match s.fetchVector p e.addr with
    | .error v => .error v
    | .ok w =>
      if e.sig.checking && vopOf w != 3 then .error { cause := 0x11, addr := e.addr, info := 0 }
      else match s.bodyWords p e.addr 32 with
        | .error v => .error v
        | .ok none => .error { cause := 0x65, addr := 0, info := 0 }
        | .ok (some l) => if (e.sig.words l).2 then .ok l else .error { cause := 0x10, addr := e.addr, info := 0 }

/-- A task gone: its registers are pending no more, and its body leaves the loop buffer (R190, R357). -/
def Proc.endTask (p : Proc) (id : Nat) : Proc :=
  let drop := fun (n : Snap) => { n with pendG := n.pendG.filter (fun x => x.2 != id) }
  { p with
    tasks := (p.tasks.filter (fun t => t.id != id)).map (fun t => { t with body := { t.body with snap := drop t.body.snap } })
    queue := p.queue.map (fun e => { e with snap := drop e.snap })
    pending := p.pending.filter (fun x => x.2 != id) }

/-- LOOP_REGISTER (R357): the vector unit reaches a loop entry. -/
def State.loopRegister (s : State) (pid : Nat) : State :=
  match s.proc? pid with
  | none => s
  | some p => match p.currentEntry with
    | none => s
    | some e => match e.kind with
      | .loop trip step wait set strip0 =>
        if !s.runs p then s
        else match s.unknown p (s.bodyAddrs p e.addr 32) with
        | a :: l => s.want p (a :: l)
        | [] => match s.loopBody p e with
          | .error v => s.stopVectorAt pid 2 v 0
          | .ok l =>
            let t := s.tile p.tile
            let fits := decide (t.loops.length < 4)
              && decide (t.loops.foldl (fun n x => n + x.2.2) 0 + l.length ≤ 128)
            let p := { p with queue := p.queue.filter (fun x => x.id != e.id) }
            if trip = 0 then s.setProc pid (p.endTask e.id)
            else
              let task : Task := { id := e.id, trip, iter := 0, step, wait, set, strip0, running := false
                                   captured := fits, body := e }
              let s := s.setProc pid { p with tasks := p.tasks ++ [task] }
              if fits then s.setTile p.tile { t with loops := t.loops ++ [(pid, e.id, l.length)] } else s
      | _ => s

/-- LOOP_REGISTER. -/
def execLoopRegister (pid : Nat) (s : State) : Res := .next (s.loopRegister pid)

/-- The heads iteration `i` of a task sees: strip s0 + i of each stream in STEP (R358). -/
def Proc.iterHeads (p : Proc) (t : Task) (i : Nat) : List (Option HeadRec) :=
  t.body.snap.heads.zipIdx.map (fun x => x.1.map (fun h =>
    match if t.step.testBit h.stream then p.recorded h.stream h.conf else none with
    | some c => c.headRec h.stream x.2 (t.strip0.getD h.stream 0 + i)
    | none => h))

/-- ITERATION_START (R353, R358): the WAIT test succeeds, its bits are consumed, and the iteration runs the body
(DEDUCED, log 39). -/
def State.iterationStart (s : State) (pid id : Nat) : State :=
  match s.proc? pid with
  | none => s
  | some p => match p.tasks.find? (fun t => t.id == id) with
    | none => s
    | some t =>
      let m := p.tileMask t.wait
      if !s.runs p || !t.waiting || !p.testAmong (s.tile p.tile) m (fun k => decide (k.id < id)) then s
      else
        let body := { t.body with
          vpc := t.body.addr, stopped := false, snap := { t.body.snap with heads := p.iterHeads t t.iter }
          sig := { t.body.sig with want := 0, crc := 0 } }
        (s.setProc pid { p with tasks := p.tasks.map (fun k => if k.id = id then { k with running := true, body } else k) }).modTile
          p.tile (·.evClear m)

/-- ITERATION_START. -/
def execIterationStart (pid task : Nat) (s : State) : Res := .next (s.iterationStart pid task)

/-- ITERATION_RETIRE (R358): the body has ended and its convoys have retired; the SET bits are set, once the iteration's
scratchpad stores have been performed (R369), and the last iteration completes the task. -/
def State.iterationRetire (s : State) (pid id : Nat) : State :=
  match s.proc? pid with
  | none => s
  | some p => match p.tasks.find? (fun t => t.id == id) with
    | none => s
    | some t =>
      if !s.runs p || !t.running || !t.body.stopped || p.convoys.any (fun c => c.task && c.entry == id)
        || (t.set != 0 && !(s.tile p.tile).vecDrained pid) then s
      else
        let last := decide (t.trip ≤ t.iter + 1)
        let p' := if last then p.endTask id
          else { p with tasks := p.tasks.map (fun k => if k.id = id then { k with running := false, iter := k.iter + 1 } else k) }
        (s.setProc pid p').modTile p.tile (fun x =>
          let x := x.evSet (p.tileMask t.set)
          if last then { x with loops := x.loops.filter (fun l => !(l.1 == pid && l.2.1 == id)) } else x)

/-- ITERATION_RETIRE. -/
def execIterationRetire (pid task : Nat) (s : State) : Res := .next (s.iterationRetire pid task)

/-! ## The cue instructions (R380-R385) -/

/-- RDCUE (R380). -/
def execRdcue (a : GReg) (s : State) : Res := s.withCur fun p => s.finishWr p a (BitVec.ofNat 64 s.cue)

/-- CUEWAIT (R381). -/
def execCuewait (b : GReg) (s : State) : Res :=
  s.withCur fun p => s.unlessWaiting p (.cuewait b) (s.finish p)

/-- A cue control word is malformed (R382, R383). -/
def cueMalformed (w : Nat) : Bool :=
  let action := w / 4 % 4
  let target := w / 16 % 16
  let ev := w / 256 % 256
  let tag := w / 65536 % 256
  let data := w / 2 ^ 32
  w / 2 ^ 24 % 256 != 0
  || match action with
    | 0 => target != 0 || ev != 0 || tag != 0 || data != 0
    | 1 => ev != 0 || decide (127 < tag)
    | 2 => ev != 0 || tag != 0 || decide (8 ≤ target)
    | _ => target != 0 || tag != 0 || data != 0

/-- The cause checks 2 to 4 of R383 find (DEDUCED, log 37). -/
def State.cueCause (s : State) (p : Proc) (w : Nat) : Option Cause :=
  match w / 4 % 4 with
  | 1 => match s.portOk p (BitVec.ofNat 4 (w / 16)) true with
    | .error c => some c
    | .ok _ => none
  | 2 => p.kickCause (w / 16 % 16) (w / 2 ^ 32)
  | 3 => if p.desc.evcnt ≤ w / 256 % 256 then some 0x64 else none
  | _ => none

/-- CUE (R383): arms the slot, or leaves it empty. -/
def execCue (b c : GReg) (s : State) : Res :=
  s.withCur fun p =>
    let w := (p.rd c).toNat
    if cueMalformed w then s.trapCur p 0xA0
    else if (s.waitOf s.cur p (.cue b c)).isSome then s.unlessWaiting p (.cue b c) s
    else match s.cueCause p w with
      | some cause => s.trapCur p cause
      | none =>
        let x : Option CueSlot := if w / 4 % 4 = 0 then none
          else some { time := p.rd b, ctrl := p.rd c, after := p.storeSeq, since := s.cue }
        s.finish { p with cue := vput p.cue (w % 4) x }

/-- A token of a fired SEND: its credit spent and its launch due, or discarded, or kept until a credit is there
(R384). -/
def State.cueSend (s : State) (pid : Nat) (p : Proc) (q : Nat) (x : Word) (tag : Byte) (after : Nat) : State :=
  match s.portOk p (BitVec.ofNat 4 q) true with
  | .error _ => s
  | .ok (c, ch) =>
    if s.consumerRetired ch then s.countDiscard ch 1
    else match ch.prodAt pid (BitVec.ofNat 4 q) with
      | none => s
      | some (k, d) =>
        let l : Launch := { chan := c, prod := k, token := scalarToken ch.wide x tag, after }
        if d.credits = 0 ∨ p.cueWait.any (fun w => w.1 == q) then s.setProc pid { p with cueWait := p.cueWait ++ [(q, l)] }
        else (s.setProc pid { p with launches := p.launches ++ [l] }).spend c k 1

/-- The first tokens of fired SENDs that wait, one for each port. -/
def headsByPort : List (Nat × Launch) → List (Nat × Launch)
  | [] => []
  | x :: xs => x :: (headsByPort xs).filter (fun y => y.1 != x.1)

/-- A waiting token of a fired SEND can go: its port has a credit, or its consumer has retired (R384). -/
def State.cueReady (s : State) (l : Launch) : Bool :=
  match s.chan? l.chan with
  | none => true
  | some x => s.consumerRetired x || (match x.prods[l.prod]? with
    | some d => d.credits != 0
    | none => false)

/-- A token of a fired SEND that waits takes a credit, the oldest of its port; ports do not wait for each other
(R384). -/
def State.cueCredit (s : State) (pid : Nat) (p : Proc) : State :=
  match (headsByPort p.cueWait).find? (fun x => s.cueReady x.2) with
  | none => s
  | some x =>
    let l := x.2
    let p' := { p with cueWait := p.cueWait.erase x }
    match s.chan? l.chan with
    | none => s.setProc pid p'
    | some ch =>
      if s.consumerRetired ch then (s.setProc pid p').countDiscard ch 1
      else (s.setProc pid { p' with launches := p.launches ++ [l] }).spend l.chan l.prod 1

/-- The cue time at which a slot is due. -/
def CueSlot.due (c : CueSlot) : Nat := max c.time.toNat c.since

/-- A slot is due (R383) (DEDUCED, log 37). -/
def State.cueDue (s : State) (p : Proc) (k : Nat) : Option CueSlot :=
  match vget p.cue k none with
  | none => none
  | some c => if c.due ≤ s.cue then some c else none

/-- The cause a firing KICK meets (R384). -/
def Proc.fireCause (p : Proc) (j : Nat) : Option Cause :=
  let t := p.stream j
  if t.fault then some 0x66 else if 2 ^ 48 - 1 < t.lastId + 1 then some 0x67 else none

/-- The action of a due slot cannot be performed yet: a KICK with four transfers of its stream incomplete (R341), or one
that would trap a Trapped process. -/
def Proc.cueStuck (p : Proc) (c : CueSlot) : Bool :=
  let w := c.ctrl.toNat
  let target := w / 16 % 16
  w / 4 % 4 == 2 && (if (p.fireCause target).isSome then p.st == .trapped else decide (4 ≤ (p.stream target).incomplete))

/-- A slot fires before slot `k`, due at `t`: it was due earlier, or in the same cycle with a lower number (R383). -/
def State.cueBefore (s : State) (p : Proc) (k t : Nat) : Bool :=
  (List.range 4).any (fun i => match s.cueDue p i with
    | some d => i != k && !p.cueStuck d && (decide (d.due < t) || (d.due == t && decide (i < k)))
    | none => false)

/-- The process is in its slot. -/
def Proc.resident (p : Proc) : Bool :=
  match p.st with
  | .ready => true
  | .parked _ => true
  | .trapped => true
  | _ => false

/-- The process is in its slot, and the slot runs no service code (R117). -/
def Proc.active (p : Proc) : Bool := p.resident && !p.priv

/-- CUE_SLOT_FIRE (R383, R384): a due slot fires in its order; where none is to fire, a token that waits for a credit
takes one. -/
def State.cueSlotFire (s : State) (pid k : Nat) : State :=
  match s.proc? pid with
  | none => s
  | some p =>
    if !p.active then s
    else match s.cueDue p k with
    | none => s.cueCredit pid p
    | some c =>
      if p.cueStuck c || s.cueBefore p k c.due then s.cueCredit pid p
      else
        let w := c.ctrl.toNat
        let target := w / 16 % 16
        let p' := { p with cue := vput p.cue k none }
        let s' := s.setProc pid p'
        match w / 4 % 4 with
        | 1 => s'.cueSend pid p' target (BitVec.ofNat 64 (w / 2 ^ 32)) (BitVec.ofNat 8 (w / 65536)) c.after
        | 2 => match p.fireCause target with
          | some x => s'.takeTrap pid { cause := 0xA1, origin := 4, pc := p.trapPc, addr := 0, elem := 0
                                        info := BitVec.ofNat 64 (x.toNat + k * 256) }
          | none => ((s'.flushStores pid c.after).settleStores pid).kick pid target (w / 2 ^ 32)
        | 3 => ((s'.flushStores pid c.after).settleStores pid).setEvBit p' (w / 256 % 256)
        | _ => s'

/-- CUE_SLOT_FIRE. -/
def execCueSlotFire (pid : Nat) (slot : BitVec 2) (s : State) : Res := .next (s.cueSlotFire pid slot.toNat)

/-! ## Box offices (R328-R330) -/

/-- The cause DISPQ raises (R329). -/
def State.dispqCause (s : State) (p : Proc) (t : Word) (box ev : Nat) : Option Cause :=
  let boxes := match mget s.nets p.net with
    | some n => n.offices.length
    | none => 0
  if boxes ≤ box then some 0x71
  else if t.toNat % 8 ≠ 0 then some 0x08
  else if inDevice t then some 0x72
  else match p.desc.spadCheck t 8 with
    | some c => some c
    | none => if p.desc.evcnt ≤ ev then some 0x64 else none

/-- DISPQ (R329, R330): one query sent. -/
def execDispq (b : GReg) (ev : BitVec 8) (box : BitVec 5) (s : State) : Res :=
  s.withCur fun p =>
    let t := p.rd b
    match s.dispqCause p t box.toNat ev.toNat with
    | some c => s.trapCur p c (if c = 0x71 ∨ c = 0x64 then 0 else t)
    | none => s.unlessWaiting p (.dispq b ev box) (
      let office := match mget s.nets p.net with
        | some n => (n.offices.getD box.toNat (0, 0)).1
        | none => 0
      let q : Query := { office, addr := t.toNat, ev := ev.toNat, answer := none, store := none }
      let s := s.finish { p with queries := p.queries ++ [q] }
      { s with offices := vmod s.offices office (fun o => { o with waiting := o.waiting ++ [s.cur] }) })

/-- The process a box office answers next: of highest effective priority, then the one that asked first (R328). -/
def State.nextAsker (s : State) (l : List Nat) : Option Nat :=
  (l.foldl (fun (best : Option (Nat × Nat)) pid =>
    let e := match s.proc? pid with
      | some p => p.eff
      | none => 0
    match best with
    | none => some (e, pid)
    | some b => if b.1 < e then some (e, pid) else some b) none).map (·.2)

/-- The process's first unanswered query at an office given its answer. -/
def answerFirst (office : Nat) (w : Word) : List Query → List Query
  | [] => []
  | q :: qs => if q.office = office ∧ q.answer = none then { q with answer := some w } :: qs
               else q :: answerFirst office w qs

/-- BOX_OFFICE_QUERY (R328). -/
def State.boxOfficeQuery (s : State) (k : Nat) : State :=
  let o := vget s.offices k Office.init
  match s.nextAsker o.waiting with
  | none => s
  | some pid =>
    let ticket := decide (o.next < o.count)
    let w : Word := if ticket then BitVec.ofNat 64 o.next else BitVec.ofNat 64 (129 * 2 ^ 56)
    let o' := { o with next := if ticket then o.next + 1 else o.next, waiting := o.waiting.erase pid }
    ({ s with offices := vput s.offices k o' }).modProc pid (fun p => { p with queries := answerFirst k w p.queries })

/-- BOX_OFFICE_QUERY. -/
def execBoxOfficeQuery (office : Nat) (s : State) : Res := .next (s.boxOfficeQuery office)

/-- The first answered query without its store marked with that store's number. -/
def storeFirst (seq : Nat) : List Query → List Query
  | [] => []
  | q :: qs => if q.answer.isSome ∧ q.store = none then { q with store := some seq } :: qs else q :: storeFirst seq qs

/-- DISPQ_ANSWER (R330): the answer word becomes a scratchpad store of the process; its event bit follows once that
store is performed. -/
def State.dispqAnswer (s : State) (pid : Nat) : State :=
  match s.proc? pid with
  | none => s
  | some p => match p.queries.find? (fun q => q.answer.isSome && q.store.isNone) with
    | none => s
    | some q =>
      if !p.active || decide (8 ≤ ((s.tile p.tile).fifo pid (spSlice q.addr)).length) then s
      else match q.answer with
        | none => s
        | some w => (s.setProc pid { p with queries := storeFirst p.storeSeq p.queries }).pushStore pid q.addr
            (leBytes 8 w.toNat) 0 false false

/-- DISPQ_ANSWER. -/
def execDispqAnswer (pid : Nat) (s : State) : Res := .next (s.dispqAnswer pid)

/-! ## The wake (R114) -/

/-- PARKED_WAKE (R114, R353): a process whose condition is met becomes Ready, its word to complete at its next issue;
an EVWAIT completes at the wake. -/
def State.parkedWake (s : State) (pid : Nat) : State :=
  match s.proc? pid with
  | none => s
  | some p => match p.st, p.park with
    | .parked _, some k =>
      if s.waitOf pid p k.instr = some k.reason then s
      else match k.reason, k.instr with
        | .eventWait, .evwait b => match p.evSpec (p.rd b) with
          | none => s.setProc pid { p with st := .ready, woken := true }
          | some m => (s.setProc pid { p.advance with st := .ready, park := none, woken := false, sig := k.sigAfter }).modTile
              p.tile (·.evClear m)
        | _, _ => s.setProc pid { p with st := .ready, woken := true }
    | _, _ => s

/-- PARKED_WAKE. -/
def execParkedWake (pid : Nat) (s : State) : Res := .next (s.parkedWake pid)

end Sys2Proof.Machine
end

