-- ==== Sys2Proof/Machine/Stage.lean ====
section
/-!
DEFINITION. What a parked process is reported to wait for, priority inheritance, cue frames, and the stage manager's
snapshots, classification, growth and reports (R170, R173-R180, R292, R339, R379, R385, R389).
-/

namespace Sys2Proof.Machine

/-! ## Reported park reasons (R170, R292, R339, R385) -/

/-- The port a convoy of a process waits at. -/
def State.convoyPort (s : State) (pid : Nat) (p : Proc) : Option Nat :=
  p.convoys.findSome? (fun cv =>
    if cv.finished || cv.stopped || cv.matrix || !cv.members.any (fun i => (chanOf i).isSome) then none
    else
      let c := p.ctxOf cv
      match s.attempt pid cv (cv.turn c) with
      | (.idle, some (q, _)) => if q < 16 then some q else none
      | _ => none)

/-- The vector unit waits on a strip for the process: for a started convoy, or for the next one of a running iteration or
of the current block (R339). -/
def State.stripWait (s : State) (p : Proc) : Bool :=
  let next := fun (e : Entry) => match s.nextConvoy p e with
    | .ok (_, l) => !p.stripsReady e.snap l
    | .error _ => false
  p.convoys.any (fun cv => !cv.finished && !p.stripsReady cv.snap cv.members)
  || p.tasks.any (fun t => t.running && !t.body.stopped && next t.body)
  || p.currentEntry.any (fun e => e.kind == .block && next e)

/-- The reason a process is reported parked for, and its port where that is a channel's (R113, R170, R292, R339)
(DEDUCED, log 86). -/
def State.waitsFor (s : State) (pid : Nat) (p : Proc) : Option (ParkReason × Nat) :=
  match p.st with
  | .parked r => match r, p.park.map (fun (k : Park) => k.instr) with
    | .channelRead, some (Instr.recv _ q) => some (.channelRead, q.toNat)
    | .channelRead, some (Instr.recvn _ q) => some (.channelRead, q.toNat)
    | .channelWrite, some (Instr.send _ q) => some (.channelWrite, q.toNat)
    | .channelWrite, some (Instr.sendc _ q _) => some (.channelWrite, q.toNat)
    | .vectorDrain, _ => match s.convoyPort pid p with
      | some q => match p.port q with
        | some (_, true) => some (.channelWrite, q)
        | _ => some (.channelRead, q)
      | none =>
        if p.ringWait.isSome then some (.spanLatch, 0)
        else if s.stripWait p then some (.transferWait, 0)
        else some (.vectorDrain, 0)
    | r, _ => some (r, 0)
  | _ => none

/-- The same as the stage manager counts it: a fired cue SEND without a credit is a park on channel write of its channel
too (R385). -/
def State.reported (s : State) (pid : Nat) (p : Proc) : List (ParkReason × Nat) :=
  match p.st with
  | .parked _ => (headsByPort p.cueWait).map (fun w => (.channelWrite, w.1)) ++ (s.waitsFor pid p).toList
  | _ => []

/-! ## Priority inheritance (R173, R174) -/

/-- The channels a process produces. -/
def Proc.produces (p : Proc) : List Nat := p.ports.filterMap (fun x => if x.2.2 then some x.2.1 else none)

/-- A process reads a channel and waits on it. -/
def State.readsNow (s : State) (c : Nat) : List Nat :=
  (s.procs.filter (fun x => match s.waitsFor x.1 x.2 with
    | some (.channelRead, q) => x.2.port q == some (c, false)
    | _ => false)).map (·.1)

/-- The readers that wait, by channel, as they stand. -/
def State.readers (s : State) : List (Nat × Nat) :=
  s.procs.filterMap (fun x => match s.waitsFor x.1 x.2 with
    | some (.channelRead, q) => (x.2.port q).map (fun b => (b.1, x.1))
    | _ => none)

/-- What a channel's consumer at another package passes on, as its control flits have told (R174). -/
def Chan.inheritedFar (x : Chan) : Nat :=
  match x.consumer with
  | .remote pkg => ((x.circuitTo pkg).map (·.inherited)).getD 0
  | _ => 0

/-- Effective priority of a process after one hop of inheritance, from priorities `e` (R173). -/
def State.hopOf (s : State) (rd : List (Nat × Nat)) (e : AMap Nat) (p : Proc) : Nat :=
  let cap := match mget s.tenants p.tenant with
    | some t => t.quota.priomax
    | none => 7
  p.produces.foldl (fun m c =>
    let here := (rd.filter (fun x => x.1 == c)).foldl (fun m x => max m (mgetD e x.2 0)) 0
    let far := ((s.chan? c).map (·.inheritedFar)).getD 0
    max m (min (max here far) cap)) p.desc.prio

/-- One hop for every process that is in its slot; others keep theirs (R174). -/
def State.hop (s : State) (rd : List (Nat × Nat)) (e : AMap Nat) : AMap Nat :=
  s.procs.map (fun x => (x.1, if x.2.resident then s.hopOf rd e x.2 else x.2.eff))

/-- `n` hops. -/
def State.hops (s : State) (rd : List (Nat × Nat)) (e : AMap Nat) : Nat → AMap Nat
  | 0 => e
  | n + 1 => s.hops rd (s.hop rd e) n

/-- What control flits have brought takes effect (R174). -/
def Chan.inheritIn (x : Chan) : Chan :=
  match x.consumer with
  | .remote pkg => x.modCircuit pkg (fun ci => match ci.arriving with
    | some e => { ci with inherited := e, arriving := none }
    | none => ci)
  | _ => x

/-- What the producers of a channel at other packages inherit of its consumer: of the process that waits here, or of what
comes from the package the consumer is at (R173, R174). -/
def Chan.inheritNow (x : Chan) (c : Nat) (rd : List (Nat × Nat)) (e : AMap Nat) : Nat :=
  match x.consumer with
  | .proc pid _ => if rd.contains (c, pid) then mgetD e pid 0 else 0
  | _ => x.inheritedFar

/-- The circuits of a channel that lead to producers. -/
def Chan.toProducers (x : Chan) : List Circuit := x.circuits.filter (fun ci => x.consumer != .remote ci.pkg)

/-- The wave of a frame boundary (R174): eight hops, from what has arrived over circuits; changes for producers at
other packages leave as control flits (DEDUCED, log 40). -/
def State.inheritWave (s : State) : State :=
  let s := { s with chans := s.chans.map (fun (x : Nat × Chan) => (x.1, x.2.inheritIn)) }
  let rd := s.readers
  let e := s.hops rd (s.procs.map (fun x => (x.1, x.2.eff))) 8
  let s := { s with procs := s.procs.map (fun (x : Nat × Proc) => (x.1, { x.2 with eff := mgetD e x.1 x.2.eff })) }
  s.chans.foldl (fun s x =>
    let now := x.2.inheritNow x.1 rd e
    x.2.toProducers.foldl (fun s ci =>
      if now = ci.inherited then s
      else { (s.modChan x.1 (fun y => y.modCircuit ci.pkg (fun ci => { ci with inherited := now }))) with
             vout := s.vout ++ [.inherit ci.pkg (x.2.handle x.1) now] }) s) s

/-- CUE_FRAME_BOUNDARY (R174, R301, R379, R389): budgets restart, pending reservations come into force, and
inheritance moves on. -/
def State.frameBoundary (s : State) : State :=
  if s.cue / 1024 ≤ s.frame then s
  else
    { s.inheritWave with
      frame := s.frame + 1
      servers := s.inheritWave.servers.map (fun (x : Nat × Server) => (x.1, { x.2 with granted := [] }))
      procs := s.inheritWave.procs.map (fun (x : Nat × Proc) => (x.1, { x.2 with resvUnits := x.2.resvNext })) }

/-- CUE_FRAME_BOUNDARY. -/
def execCueFrameBoundary (s : State) : Res := .next s.frameBoundary

/-- INHERITANCE_FLIT_ARRIVAL (R174): to take effect at the next frame boundary. -/
def execInheritanceFlitArrival (chan : Nat) (prio : BitVec 3) (s : State) : Res :=
  .next (s.modChan chan (fun x => match x.consumer with
    | .remote pkg => x.modCircuit pkg (fun ci => { ci with arriving := some prio.toNat })
    | _ => x))

/-! ## Snapshots and classification (R176, R177) -/

/-- A process's part of row 1 of R177; a reader whose token is there counts as in motion, since it is about to be
Ready. -/
def State.procMoves (s : State) (pid : Nat) (p : Proc) : Bool :=
  match p.st with
  | .retired => false
  | .parked _ =>
    (p.cue.toList.any (fun c => match c with
      | some c => decide (s.cue < c.time.toNat)
      | none => false))
    || (s.reported pid p).isEmpty || (s.reported pid p).any (fun r => match r with
      | (.channelRead, q) => match (p.port q).bind (fun b => s.chan? b.1) with
        | some x => !x.buffer.isEmpty || !x.spill.isEmpty || x.prods.any (fun d => match d.src with
            | .host _ _ => true
            | _ => false)
        | none => true
      | (.channelWrite, q) => match (p.port q).bind (fun b => s.chan? b.1) with
        | some x => s.consumerRetired x || (match x.consumer with
            | .host _ _ => true
            | _ => false)
          || (match x.prodOf (.proc pid q) with
            | some k => match x.prods[k]? with
              | some d => d.credits != 0
              | none => true
            | none => true)
        | none => true
      | _ => true)
  | _ => true

/-- The sum of a 32-bit counter over producers. -/
def sumBits (l : List (BitVec 32)) : BitVec 32 := l.foldl (· + ·) 0

/-- Something of a channel is in flight: by its counters where both ends are here; a growth grant (R176). -/
def Chan.moving (x : Chan) : Bool :=
  x.prods.any (fun d => d.growing != 0)
  || (x.circuits.isEmpty && (sumBits (x.prods.map (·.sent)) != x.written || x.consumed != sumBits (x.prods.map (·.received))))

/-- A network's channels. -/
def State.netChans (s : State) (k : Nat) : List (Nat × Chan) := s.chans.filter (fun x => x.2.net == k)

/-- The processes of a network that are on this package. -/
def State.procsHere (s : State) (n : Net) : List (Nat × Proc) :=
  n.procs.filterMap (fun pid => (s.proc? pid).bind (fun p => if p.moved.isSome then none else some (pid, p)))

/-- A network's part of its connected set: in motion, and some process parked on channel write. -/
def State.viewOf (s : State) (k : Nat) (n : Net) : Bool × Bool :=
  let ps := s.procsHere n
  (ps.any (fun x => s.procMoves x.1 x.2) || (s.netChans k).any (fun x => x.2.moving),
    ps.any (fun x => (s.reported x.1 x.2).any (fun r => r.1 == .channelWrite)))

/-- A channel's consumer is at another package. -/
def Chan.consumerAway (x : Chan) : Bool :=
  match x.consumer with
  | .remote _ => true
  | _ => false

/-- The producers of a channel that are here. -/
def Chan.prodsHere (x : Chan) : List Producer := x.prods.filter (fun d => match d.src with
  | .remote _ => false
  | _ => true)

/-- The counters of a channel's ends here (R176). -/
def Chan.endCounts (x : Chan) (c : Nat) : EndCounts :=
  { handle := x.handle c, sent := sumBits (x.prodsHere.map (·.sent)), received := sumBits (x.prodsHere.map (·.received))
    written := if x.consumerAway then 0 else x.written, consumed := if x.consumerAway then 0 else x.consumed }

/-! ## Growth and reports (R178, R180) -/

/-- Capacity of a channel in bytes (R178). -/
def Chan.capacity (x : Chan) : Nat := x.slots * 2 ^ x.doublings * (if x.wide then 64 else 8)

/-- SPILL pages a doubling of a channel charges (R178). -/
def Chan.growPages (x : Chan) : Nat := (x.slots * 2 ^ x.doublings * (if x.wide then 128 else 16) + 4095) / 4096

/-- The channels with a producer of a network parked on write, each with its capacity (R178). -/
def State.blockedChans (s : State) (n : Net) : List (BitVec 32 × Nat) :=
  (s.procsHere n).flatMap (fun x => (s.reported x.1 x.2).filterMap (fun r =>
    if r.1 = .channelWrite then (x.2.port r.2).bind (fun b => (s.chan? b.1).map (fun y => (y.handle b.1, y.capacity))) else none))

/-- The channel to grow: the smallest, of equals the one of lowest INDEX (R178). -/
def smallest (l : List (BitVec 32 × Nat)) : Option (BitVec 32 × Nat) :=
  l.foldl (fun best x => match best with
    | none => some x
    | some b => if x.2 < b.2 ∨ (x.2 = b.2 ∧ x.1 < b.1) then some x else some b) none

/-- SPILL pages a tenant is charged: of its channels and saved contexts (R31, R178, R410). -/
def State.spillCharge (s : State) (tenant : Nat) : Nat :=
  s.chans.foldl (fun n x => match mget s.nets x.2.net with
    | some k => if k.tenant = tenant then n + x.2.spillPages else n
    | none => n) 0
  + s.procs.foldl (fun n x => if x.2.tenant = tenant then n + x.2.savePages else n) 0

/-- A channel grown (R178): the pages where its consumer is, the credits for the producers here; the packages that hold
the other producers decide the same from the same data, and grant theirs (DEDUCED, log 40). -/
def State.grow (s : State) (c : Nat) : State :=
  s.modChan c (fun x => { x with
    doublings := x.doublings + 1, spillPages := x.spillPages + (if x.consumerAway then 0 else x.growPages)
    prods := x.prods.map (fun (d : Producer) => match d.src with
      | .remote _ => d
      | _ => { d with growing := d.growing + d.share * (x.doublings + 1) }) })

/-- The growth of a channel, its pages charged here, does not fit the quota (R177, R178). -/
def State.tight (s : State) (tenant : Nat) (x : Chan) : Bool :=
  let quota := match mget s.tenants tenant with
    | some t => t.quota.spill
    | none => 0
  !x.consumerAway && decide (quota < s.spillCharge tenant + x.growPages)

/-- A process token of a report (R180). -/
def State.reportToken (s : State) (pid : Nat) (p : Proc) : Word :=
  let lproc := p.desc.lproc * 2 ^ 52
  match (s.reported pid p).head? with
  | some (r, q) =>
    let wr := r == .channelWrite
    let b := match p.port q with
      | some b => b.1
      | none => 0
    match s.chan? b with
    | some x =>
      let count := if wr then (match x.prodOf (.proc pid q) with
          | some k => ((x.prods[k]?).map (·.sent)).getD 0
          | none => 0) else x.consumed
      BitVec.ofNat 64 (lproc + wr.toNat * 2 ^ 48 + q * 2 ^ 44 + b * 2 ^ 24 + x.gen.toNat * 2 ^ 12 + count.toNat % 4096)
    | none => BitVec.ofNat 64 lproc
  | none => BitVec.ofNat 64 (lproc + 15 * 2 ^ 48)

/-- The processes of a network in ascending LPROC order. -/
def State.byLproc (s : State) (n : Net) : List (Nat × Proc) :=
  (n.procs.filterMap (fun pid => (s.proc? pid).map (fun p => (pid, p)))).mergeSort
    (fun x y => decide (x.2.desc.lproc ≤ y.2.desc.lproc))

/-- A stage-manager report (R180). -/
def State.stageReport (s : State) (n : Net) (cause : Cause) (time : Nat) : State :=
  let l := s.byLproc n
  s.enterRecord n.tenant (BitVec.ofNat 64 (2 ^ 56 + cause.toNat * 2 ^ 48 + n.number * 2 ^ 40 + l.length % 4096 * 2 ^ 28)
    :: BitVec.ofNat 64 time :: l.map (fun x => s.reportToken x.1 x.2))

/-- A network held (R44). -/
def State.holdNet (s : State) (k : Nat) : State := s.modNet k (fun n => { n with st := .held, thermal := false })

/-- A network's part of its connected set at a snapshot (R176-R178). -/
def State.partOf (s : State) (time k : Nat) (n : Net) : SetPart :=
  let cs := s.netChans k
  let view := s.viewOf k n
  { pkg := s.selfPkg, net := k, time, moves := view.1, writes := view.2
    links := cs.flatMap (fun x => x.2.circuits.map (fun ci => (x.2.handle x.1, ci.pkg)))
    counts := (cs.filter (fun x => !x.2.circuits.isEmpty)).map (fun x => x.2.endCounts x.1)
    blocked := s.blockedChans n, tight := (cs.filter (fun x => s.tight n.tenant x.2)).map (fun x => x.2.handle x.1) }

/-- Two parts share a circuit. -/
def partsJoin (x y : SetPart) : Bool :=
  x.links.any (fun l => l.2 == y.pkg && y.links.contains (l.1, x.pkg))

/-- The parts joined to those of `l`, step by step; `fuel` at least the number of parts (R177). -/
def joined (ps : List SetPart) (l : List SetPart) : Nat → List SetPart
  | 0 => l
  | fuel + 1 => joined ps (l ++ ps.filter (fun x => !l.contains x && l.any (fun y => partsJoin y x))) fuel

/-- The data of every part of a set has arrived: each circuit of a part has its other end in one of them (R177). -/
def setWhole (l : List SetPart) : Bool :=
  l.all (fun x => x.links.all (fun k => l.any (fun y => y.pkg == k.2 && y.links.contains (k.1, x.pkg))))

/-- A token or a credit is in flight on a circuit of a set: by the counters of all its ends (R176). -/
def setFlight (l : List SetPart) : Bool :=
  let cs := l.flatMap (·.counts)
  cs.any (fun x =>
    let same := cs.filter (fun y => y.handle == x.handle)
    sumBits (same.map (·.sent)) != sumBits (same.map (·.written))
      || sumBits (same.map (·.consumed)) != sumBits (same.map (·.received)))

/-- What becomes of a connected set (R177). -/
inductive SetClass where
  | inMotion | grow (handle : BitVec 32) | quota | dead
  deriving DecidableEq, Repr

/-- A connected set in the first row of the table that applies (R177, R178). -/
def classOf (l : List SetPart) : SetClass :=
  if l.any (·.moves) || setFlight l then .inMotion
  else if l.any (·.writes) then
    match smallest (l.flatMap (·.blocked)) with
    | none => .inMotion
    | some (c, _) => if l.any (fun x => x.tight.contains c) then .quota else .grow c
  else .dead

/-- The networks of a set that are here, held, each with its report (R177, R180). -/
def State.holdSet (s : State) (cause : Cause) (time : Nat) (l : List Nat) : State :=
  l.foldl (fun (s : State) k => match mget s.nets k with
    | some n => if n.st = .running then (s.stageReport n cause time).holdNet k else s
    | none => s) s

/-- A set dealt with here (R177): its networks of this package are `l` (DEDUCED, log 40). -/
def State.classify (s : State) (x : SetClass) (time : Nat) (l : List Nat) : State :=
  match x with
  | .inMotion => s
  | .grow h => match s.chan? (h.toNat / 4096) with
    | some x => if x.handle (h.toNat / 4096) = h ∧ l.contains x.net then s.grow (h.toNat / 4096) else s
    | none => s
  | .quota => s.holdSet 0x33 time l
  | .dead => s.holdSet 0x36 time l

/-- The sets of the last snapshot whose data is whole are classified; the others wait (R177). -/
def State.classifySet (s : State) (k : Nat) : State :=
  let now := s.cut.parts.filter (fun x => x.time == s.cut.time)
  match now.find? (fun x => x.pkg == s.selfPkg && x.net == k) with
  | none => s
  | some x =>
    let l := joined now [x] now.length
    let mine := (l.filter (fun y => y.pkg == s.selfPkg)).map (·.net)
    if !s.cut.nets.contains k || !setWhole l then s
    else ({ s with cut := { s.cut with nets := s.cut.nets.filter (fun n => !mine.contains n) } }).classify (classOf l) s.cut.time mine

/-- The parts of a network's set that are known, sent on every circuit of the network. -/
def State.tellParts (s : State) (k : Nat) : State :=
  let parts := s.cut.parts.filter (fun x => x.time == s.cut.time)
  { s with vout := s.vout ++ (s.netChans k).flatMap (fun x =>
      x.2.circuits.map (fun ci => Packet.snap ci.pkg (x.2.handle x.1) { parts, gone := none })) }

/-- STAGE_SNAPSHOT (R176, R177): at each multiple of 2^14 of the cue clock every running network's part is latched; a set
that is all here is classified, and the parts of the others leave for the packages their circuits lead to. -/
def State.stageSnapshot (s : State) : State :=
  if s.cue / 16384 ≤ s.snapTime then s
  else
    let time := (s.snapTime + 1) * 16384
    let run := s.nets.filter (fun x => x.2.st == .running)
    let mine := run.map (fun x => s.partOf time x.1 x.2)
    let early := s.cut.parts.filter (fun x => decide (time ≤ x.time))
    let s := { s with snapTime := s.snapTime + 1, cut := { time, nets := run.map (·.1), parts := mine ++ early } }
    let s := (run.filter (fun x => mine.any (fun y => y.net == x.1 && !y.links.isEmpty))).foldl (fun (s : State) x => s.tellParts x.1) s
    run.foldl (fun (s : State) x => s.classifySet x.1) s

/-- STAGE_SNAPSHOT. -/
def execStageSnapshot (s : State) : Res := .next s.stageSnapshot

/-- An end of a channel at another package whose process has retired there (R161): senders here are told, and the
packages of other producers; what this package keeps of a process it had moved there retires. -/
def State.goneAt (s : State) (c : Nat) (x : Chan) (which : Nat) : State :=
  let s := match which, x.consumer with
    | 0, .remote pkg =>
      { s.modChan c (fun x => x.modCircuit pkg (fun ci => { ci with retired := true })) with
        vout := s.vout ++ x.toProducers.map (fun (ci : Circuit) => Packet.snap ci.pkg (x.handle c) { parts := [], gone := some 0 }) }
    | _, _ => s
  match s.procs.find? (fun (p : Nat × Proc) => p.2.moved.isSome && p.2.movedEnds.contains (c, which)) with
  | some (pid, _) => if s.isRetired pid then s else s.retireProc pid
  | none => s

/-- SNAPSHOT_DATA_ARRIVAL (R161, R177): parts not known before are kept, passed on, and may make a set whole. -/
def State.snapshotData (s : State) (c : Nat) (far : FarEnd) : State :=
  match s.chan? c with
  | none => s
  | some x =>
    let s := match far.gone with
      | some k => s.goneAt c x k
      | none => s
    let new := far.parts.filter (fun y => decide (s.cut.time ≤ y.time) && !s.cut.parts.contains y)
    if new.isEmpty then s
    else
      let s := { s with cut := { s.cut with parts := s.cut.parts ++ new } }
      let s := s.cut.nets.foldl (fun (s : State) k => s.tellParts k) s
      s.cut.nets.foldl (fun (s : State) k => s.classifySet k) s

/-- SNAPSHOT_DATA_ARRIVAL. -/
def execSnapshotDataArrival (chan : Nat) (far : FarEnd) (s : State) : Res := .next (s.snapshotData chan far)

end Sys2Proof.Machine
end

