-- ==== Sys2Proof/Machine/Remote.lean ====
section
/-!
DEFINITION. Viaduct: links and routes, circuits, registrations, remote line requests at their target and their replies,
and the context cache (R422-R430).
-/

namespace Sys2Proof.Machine

/-! ## Ports and routes (R422-R424) -/

/-- A port. -/
def State.vport (s : State) (k : Nat) : VPort := mgetD s.ports k VPort.init

/-- The state with a port changed. -/
def State.modVPort (s : State) (k : Nat) (f : VPort → VPort) : State := { s with ports := mset s.ports k (f (s.vport k)) }

/-- A package has a live port in its group (R423). -/
def State.reachable (s : State) (pkg : Nat) : Bool :=
  match mget s.routes pkg with
  | none => false
  | some g => (List.range 36).any (fun k => g.getLsbD k && (s.vport k).up)

/-- A flit joins the packet its port is receiving: the flits so far, and whether they are the whole packet, a header
flit with the payload flits that follow it (R423) (DESIGN CHOICE, log 90). -/
def VPort.join (p : VPort) (f : Flit) : List (List Byte) × Bool :=
  let l := p.packet ++ [f.payload]
  (l, l.length == 1 + Config.packetFlits (l.headD []) % 9)

/-- FLIT_ARRIVAL (R422, R423): a good flit is taken in its order, a bad one, or one after it, asked for again. The whole
packet is taken here, or goes on to the package it is for. A flit shows that the other end's SNAPSHOT is over (R424)
(DESIGN CHOICE, log 23) (DEDUCED, log 52). -/
def State.flitArrival (s : State) (k : Nat) (f : Flit) : State :=
  let p := s.vport k
  if !p.up || p.bulk.isSome then s
  else if f.payload.length != 32 || !f.corrected || f.crc != Config.linkCrc f.payload || f.seq != p.recvSeq then
    { s with vout := s.vout ++ [.nakFlit k p.recvSeq] }
  else
    let (l, whole) := p.join f
    let s := s.modVPort k (fun p => { p with recvSeq := p.recvSeq + 1, farBulk := none, packet := if whole then [] else l })
    if !whole then s
    else if s.self = some f.dst then { s with inbox := s.inbox ++ [l.flatten] }
    else { s with vout := s.vout ++ [.forward f.dst l.flatten] }

/-- FLIT_ARRIVAL. -/
def execFlitArrival (port : Nat) (flit : Flit) (s : State) : Res := .next (s.flitArrival port flit)

/-- PORT_DOWN (R422, R423): what the port had not delivered goes by other ports of the group, still once (DEDUCED,
log 52). -/
def execPortDown (port : Nat) (s : State) : Res := .next (s.modVPort port (fun p => { p with up := false }))

/-- Bytes of a virtual range cut at multiples of `unit`, `fuel` pieces at most: addresses and lengths. -/
def cutRange (a n unit : Nat) : Nat → List (Nat × Nat)
  | 0 => []
  | fuel + 1 =>
    if n = 0 then []
    else
      let m := min n (unit - a % unit)
      (a, m) :: cutRange (a + m) (n - m) unit fuel

/-- A registration that is in force. -/
def State.reg? (s : State) (key : BitVec 12) : Option Reg := mget s.regs key.toNat

/-- BULK_BLOCK_ARRIVAL (R424): on a live port that the other end's SNAPSHOT has in bulk framing, its first block puts it
there, a block that passes its CRC is written at its offset and any other asked for again (DEDUCED, log 56). -/
def State.bulkBlock (s : State) (k : Nat) (key : BitVec 12) (b : BulkBlock) : State :=
  let p := s.vport k
  let block := b.header.toNat % 2 ^ 30
  if !p.up || p.bulk.isSome || p.farBulk.getD key != key then s
  else
    let s := s.modVPort k (fun p => { p with farBulk := some key })
    if b.payload.length ≠ 512 ∨ b.header.toNat / 2 ^ 32 ≠ (Config.linkCrc (leBytes 4 b.header.toNat ++ b.payload)).toNat then
      { s with vout := s.vout ++ [.nakBlock k block] }
    else match s.reg? key with
      | none => s
      | some r =>
        if r.pages * 4096 < 512 * block + 512 then s
        else
          let s := s.touchWalk r.tenant (r.base + 512 * block)
          match s.walkTranslate r.tenant (r.base + 512 * block) kWrite with
          | .ok (.phys pa) => s.memWrite pa b.payload ((List.range 512).map (fun i => b.poison.getLsbD (i / 8)))
          | _ => s

/-- BULK_BLOCK_ARRIVAL (DEDUCED, log 56). -/
def execBulkBlockArrival (port : Nat) (key : BitVec 12) (blk : BulkBlock) (s : State) : Res :=
  .next (s.bulkBlock port key blk)

/-! ## Circuits (R425) -/

/-- The channel a handle names, with its generation right. -/
def State.liveHandle (s : State) (h : BitVec 32) : Option (Nat × Chan) :=
  match s.chan? (h.toNat / 4096) with
  | none => none
  | some x => if x.gen.toNat = h.toNat % 4096 ∧ x.circuits ≠ [] then some (h.toNat / 4096, x) else none

/-- The token of a packet. -/
def circToken (t : CircToken) (wide : Bool) : Token :=
  { data := t.data, tag := t.tag, poison := (List.range (if wide then 8 else 1)).map (fun w => t.poison.getLsbD w) }

/-- A token that has come over a circuit, in its order: written at the consumer here, or on its way, behind those its
producer had sent while it was here, or to the package the consumer is at (R157, R162). -/
def Chan.tokenHere (x : Chan) (t : CircToken) : Chan :=
  let away := match x.consumer with
    | .remote _ => true
    | _ => false
  if away || (x.prods[t.prod]?).any (fun d => !d.flight.isEmpty) then
    x.modProd t.prod (fun d => { d with flight := d.flight ++ [circToken t x.wide] })
  else x.arrive t.prod (circToken t x.wide)

/-- Tokens held in the context of the circuit from a package, written as far as their order goes; `n` at most. -/
def Chan.takeTokens (x : Chan) (pkg : Nat) : Nat → Chan
  | 0 => x
  | n + 1 => match x.circuitTo pkg with
    | none => x
    | some ci => match ci.heldTokens.find? (fun t => t.seq == ci.recvSeq) with
      | none => x
      | some t =>
        ((x.modCircuit pkg (fun ci => { ci with
          recvSeq := ci.recvSeq + 1, heldTokens := ci.heldTokens.filter (fun y => y.seq != t.seq) })).tokenHere t).takeTokens pkg n

/-- A token packet at the end of the circuit from a package. -/
def Chan.tokenIn (x : Chan) (pkg : Nat) (t : CircToken) : Chan :=
  let y := x.modCircuit pkg (fun ci => { ci with heldTokens := ci.heldTokens ++ [t] })
  y.takeTokens pkg (((y.circuitTo pkg).map (fun ci => ci.heldTokens.length)).getD 0)

/-- The package a producer's tokens come from: the one its end is at, or the consumer's, which passes on what had been
sent to it before the consumer moved here (R162). -/
def Chan.tokenFrom (x : Chan) (k : Nat) : Nat :=
  match (x.prods[k]?).map (fun (d : Producer) => d.src) with
  | some (End.remote pkg) => pkg
  | _ => ((x.circuits.head?).map (·.pkg)).getD 0

/-- A token or credit that names another generation: NAKed, logged, and discarded (R425). -/
def State.stale (s : State) (h : BitVec 32) : State := { s with vout := s.vout ++ [.nakStale h], staleLog := s.staleLog ++ [h] }

/-- CIRCUIT_TOKEN_ARRIVAL (R425, R430): written in sequence order; a stale one is discarded. -/
def State.circuitToken (s : State) (t : CircToken) : State :=
  match s.liveHandle t.handle with
  | none => s.stale t.handle
  | some (c, x) =>
    if s.spilled.contains (.circuit c) then { s with vout := s.vout ++ [.nakRetry t.handle] }
    else
      let y := x.tokenIn (x.tokenFrom t.prod) t
      (if y.written = x.written then s else s.outletSignal x).modChan c (fun _ => y)

/-- CIRCUIT_TOKEN_ARRIVAL. -/
def execCircuitTokenArrival (pkt : CircToken) (s : State) : Res := .next (s.circuitToken pkt)

/-- A credit packet taken, in its order: at the producer here, or on its way to the package the producer is at. -/
def Chan.creditHere (x : Chan) (t : CircCredit) : Chan :=
  x.modProd t.prod (fun d => match d.src with
    | .remote _ => { d with returning := d.returning + t.count }
    | _ => { d with credits := d.credits + t.count, received := d.received + BitVec.ofNat 32 t.count })

/-- Credits held in the context of the circuit from a package, applied as far as their order goes. -/
def Chan.takeCredits (x : Chan) (pkg : Nat) : Nat → Chan
  | 0 => x
  | n + 1 => match x.circuitTo pkg with
    | none => x
    | some ci => match ci.heldCredits.find? (fun t => t.seq == ci.creditRecv) with
      | none => x
      | some t =>
        ((x.modCircuit pkg (fun ci => { ci with
          creditRecv := ci.creditRecv + 1, heldCredits := ci.heldCredits.filter (fun y => y.seq != t.seq) })).creditHere t).takeCredits pkg n

/-- A credit packet at the end of the circuit from a package. -/
def Chan.creditIn (x : Chan) (pkg : Nat) (t : CircCredit) : Chan :=
  let y := x.modCircuit pkg (fun ci => { ci with heldCredits := ci.heldCredits ++ [t] })
  y.takeCredits pkg (((y.circuitTo pkg).map (fun ci => ci.heldCredits.length)).getD 0)

/-- The package a channel's credits come from: the consumer's, or where it moved here from. -/
def Chan.creditFrom (x : Chan) : Nat :=
  match x.consumer with
  | .remote pkg => pkg
  | _ => ((x.circuits.head?).map (·.pkg)).getD 0

/-- CIRCUIT_CREDIT_ARRIVAL (R425). -/
def State.circuitCredit (s : State) (t : CircCredit) : State :=
  match s.liveHandle t.handle with
  | none => s.stale t.handle
  | some (c, x) =>
    if s.spilled.contains (.circuit c) then { s with vout := s.vout ++ [.nakRetry t.handle] }
    else
      let y := x.creditIn x.creditFrom t
      let s := x.prods.zipIdx.foldl (fun s d => match y.prods[d.2]? with
        | some e => if e.credits = 0 then s else s.inletSignal d.1
        | none => s) s
      s.modChan c (fun _ => y)

/-- CIRCUIT_CREDIT_ARRIVAL. -/
def execCircuitCreditArrival (pkt : CircCredit) (s : State) : Res := .next (s.circuitCredit pkt)

/-- A token or credit of this package that comes back NAKed: to be resent, or stale and so logged (R425, R430)
(DEDUCED, log 54). -/
def State.nakBack (s : State) (p : Packet) (retry : Bool) : State :=
  if retry then { s with resends := s.resends ++ [p] }
  else match p with
    | .token _ t => { s with staleLog := s.staleLog ++ [t.handle] }
    | .credit _ t => { s with staleLog := s.staleLog ++ [t.handle] }
    | _ => s

/-- The oldest token or credit NAKed retry goes out again (R430). -/
def State.resend (s : State) : State :=
  match s.resends with
  | [] => s
  | p :: rest => { s with resends := rest, vout := s.vout ++ [p] }

/-! ## Remote requests at their target (R426, R427, R429, R436) -/

/-- Bytes a line request touches. -/
def kindBytes (k : ReqKind) : Nat :=
  match k with
  | .read n | .linked n | .amo _ n _ _ | .vamo _ n _ _ _ _ | .sadd n _ _ _ => n
  | .write b _ | .fill b _ _ | .cond b _ => b.length

/-- The access kind of a line request (R312). -/
def kindAccess (k : ReqKind) : Nat :=
  match k with
  | .read _ | .linked _ => kRead
  | .write _ _ | .fill _ _ _ | .cond _ _ => kWrite
  | .amo _ _ _ _ | .vamo _ _ _ _ _ _ | .sadd _ _ _ _ => kRmw

/-- A registration admits an access kind (R426). -/
def Reg.admits (r : Reg) (kind : Nat) : Bool := if kind = kRead then r.read else if kind = kWrite then r.write else r.atomic

/-- What the target answers an access it turns away with. -/
inductive Refused where
  | retry
  | nak (cause : Cause)
  /-- Cause 0x25, with the notice of R429. -/
  | revoked (r : Reg)
  deriving DecidableEq, Repr

/-- The checks on a remote access, in their order (R427, R429) (DEDUCED, log 50). -/
def State.checkRemote (s : State) (tenant : Nat) (key gen : BitVec 12) (off n kind : Nat) : Except Refused Reg :=
  if s.spilled.contains (.registration key.toNat) then .error .retry
  else match s.reg? key with
    | none => .error (.nak 0x91)
    | some r =>
      if !r.allowed.getLsbD tenant then .error (.nak 0x91)
      else if r.revoked || r.revoking then .error (.revoked r)
      else if gen ≠ r.gen then .error (.nak 0x26)
      else if r.pages * 4096 < off + n then .error (.nak 0x92)
      else if !r.admits kind then .error (.nak 0x93)
      else .ok r

/-- A NAK sent to a package, logged by the Prompter (R26, R441) (DEDUCED, log 93). -/
def State.logNak (s : State) (pkg : Nat) (c : Cause) : State := { s with nakLog := s.nakLog ++ [(pkg, c)] }

/-- The refusal's reply, and with 0x25 the notice in the owner's fault record (R405, R429) (DEDUCED, log 50). -/
def State.refuseRemote (s : State) (pkg tenant : Nat) (key : BitVec 12) (e : Refused) : State × RemRep :=
  match e with
  | .retry => (s, .retry)
  | .nak c => (s.logNak pkg c, .nak c)
  | .revoked r =>
    ((s.logNak pkg 0x25).noticeBare r.tenant (noticeWord 0x25 4 0 (key.toNat * 2 ^ 36 + r.gen.toNat * 2 ^ 24 + pkg % 1024 * 2 ^ 14
      + tenant % 32 * 2 ^ 9)), .nak 0x25)

/-- REMOTE_REQUEST (R427): checked, and passed to its server or refused (DEDUCED, log 51). -/
def State.remoteRequest (s : State) (q : RemReq) : State :=
  let n := kindBytes q.kind
  match s.checkRemote q.tenant q.key q.gen q.off n (kindAccess q.kind) with
  | .error e =>
    let (s, rep) := s.refuseRemote q.src q.tenant q.key e
    { s with vout := s.vout ++ [.reply q.src q.id rep] }
  | .ok r =>
    let s := s.touchWalk r.tenant (r.base + q.off)
    match s.walkTranslate r.tenant (r.base + q.off) (kindAccess q.kind) with
    | .ok (.phys pa) =>
      let (id, s) := s.sendReq (.remote q.src q.agent) pa q.kind 0
      { s with accepted := s.accepted ++ [{ key := q.key, pkg := q.src, id := q.id, req := id, msg := none }] }
    | _ => { s.logNak q.src 0x93 with vout := s.vout ++ [.reply q.src q.id (.nak 0x93)] }

/-- REMOTE_REQUEST. -/
def execRemoteRequest (req : RemReq) (s : State) : Res := .next (s.remoteRequest req)

/-- The line requests of an accepted packet, sent. -/
def State.packetWrites (s : State) (r : Reg) (m : MsgPkt) : List (Nat × Nat) → State
  | [] => s
  | (o, n) :: rest =>
    let s := s.touchWalk r.tenant (r.base + o)
    let s : State := match s.walkTranslate r.tenant (r.base + o) kWrite with
      | .ok (.phys pa) =>
        let at0 := o - m.regOff
        let (id, s) := s.sendReq (.remote m.src m.id) pa
          (.write ((m.bytes.drop at0).take n) ((m.poison.drop at0).take n)) 0
        { s with accepted := s.accepted ++ [{ key := m.key, pkg := m.src, id := m.id, req := id, msg := some m }] }
      | _ => s
    s.packetWrites r m rest

/-- MESSAGE_PACKET_ARRIVAL (R427, R436): checked, then written at its offset; the last of a message counts it. -/
def State.messagePacket (s : State) (m : MsgPkt) : State :=
  let answer : State → RemRep → State := fun s rep =>
    { s with vout := s.vout ++ [.msgReply m.src m.srcQ { post := m.post, off := m.off, rep }] }
  let n := m.bytes.length
  if s.spilled.contains (.queue (m.tqh.toNat / 4096)) then answer s .retry
  else match s.checkRemote m.tenant m.key m.gen m.regOff n kWrite with
    | .error e =>
      let (s, rep) := s.refuseRemote m.src m.tenant m.key e
      answer s rep
    | .ok r => match s.queueOf m.tqh with
      | none => answer (s.logNak m.src 0x26) (.nak 0x26)
      | some _ => s.packetWrites r m (cutRange m.regOff n 64 (n / 64 + 2))

/-- MESSAGE_PACKET_ARRIVAL. -/
def execMessagePacketArrival (pkt : MsgPkt) (s : State) : Res := .next (s.messagePacket pkt)

/-- REVOKE_COMPLETE (R429): every request accepted before the revoke has been performed; the command replies. -/
def State.revokeComplete (s : State) (key : BitVec 12) : State :=
  match s.reg? key with
  | none => s
  | some r =>
    if !r.revoking || s.accepted.any (fun a => a.key == key) then s
    else
      let s := { s with regs := mset s.regs key.toNat { r with revoking := false, revoked := true } }
      match s.fns.find? (fun x => match x.2.busy with
          | some b => b.header.toNat / 2 ^ 56 == 0x1F && (b.args.map (·.toNat)).contains key.toNat
          | none => false) with
      | none => s
      | some (fn, _) => s.finishBusy fn 0 []

/-- REVOKE_COMPLETE. -/
def execRevokeComplete (key : BitVec 12) (s : State) : Res := .next (s.revokeComplete key)

/-! ## Replies at the requester (R427, R430) -/

/-- The reply to a request of this package, as its source takes it. -/
def State.remoteDone (s : State) (id : Nat) (x : RemotePend) (r : Reply) : State :=
  { s with remotes := mdel s.remotes id, replies := s.replies ++ [{ r with id, src := x.src }] }

/-- A cause that a packet of another package may carry (R318, R400): no part of XZ1 reports another (DEDUCED, log
53) (DEDUCED, log 53). -/
def carriedCause (c : Cause) : Bool :=
  let n := c.toNat
  (decide (0x20 ≤ n) && decide (n ≤ 0x2A)) || n == 0x40 || (decide (0x90 ≤ n) && decide (n ≤ 0x95))

/-- REMOTE_REPLY (R427); a NAK with a code that R400 keeps from being reported is no packet (DEDUCED, log 53). -/
def State.remoteReply (s : State) (id : Nat) (rep : RemRep) : State :=
  match mget s.remotes id with
  | none => s
  | some x =>
    if x.msg.isSome then s
    else match rep with
      | .done b p ok fl => s.remoteDone id x { Reply.ack id x.src with
          bytes := b, poison := p, ok, flags := Flags.ofWord (fl.setWidth 64) }
      | .nak c => if carriedCause c then s.remoteDone id x { Reply.ack id x.src with cause := some c } else s
      | .retry => { s with remotes := mset s.remotes id { x with waiting := true } }

/-- REMOTE_REPLY. -/
def execRemoteReply (id : Nat) (rep : RemRep) (s : State) : Res := .next (s.remoteReply id rep)

/-! ## The context cache (R430) -/

/-- CONTEXT_SPILL (R430): the context with a number among the unpinned ones in the cache goes to HBM
(DEDUCED, log 54). -/
def execContextSpill (ctx : Nat) (s : State) : Res :=
  .next (
    let l := (s.contextList.filter (fun x => !x.2 && !s.spilled.contains x.1)).map (·.1)
    match l[ctx]? with
    | none => s
    | some c => { s with spilled := s.spilled ++ [c] })

/-- CONTEXT_FILL (R430): the context with a number among the spilled ones comes back where its cache has room, and what
waited for it goes out. -/
def execContextFill (ctx : Nat) (s : State) : Res :=
  .next (match s.spilled[ctx]? with
    | none => s
    | some c => if s.cacheFull c then s else { s with spilled := s.spilled.eraseIdx ctx }.sendHeld c)

end Sys2Proof.Machine
end

