-- ==== Sys2Proof/Machine/Transfers.lean ====
section
/-!
DEFINITION. Transfer queues: XPOST, XWAIT, the firing and sending of posts, and what becomes of a request that is
answered with retry or meets an unreachable package (R427, R430-R437).
-/

namespace Sys2Proof.Machine

/-! ## Posts of a queue (R431, R435) -/

/-- A process's queue changed (DEDUCED, log 49). -/
def Proc.modQueue (p : Proc) (q : Nat) (f : XQueue → XQueue) : Proc := { p with xq := vmod p.xq q f }

/-- A post of a queue changed. -/
def Proc.modPost (p : Proc) (q n : Nat) (f : Post → Post) : Proc :=
  p.modQueue q (fun x => { x with posts := x.posts.map (fun t => if t.number = n then f t else t) })

/-- DONE rises past the posts that have completed, `n` at most. -/
def XQueue.settle (x : XQueue) : Nat → XQueue
  | 0 => x
  | n + 1 => match x.posts.find? (fun t => t.number == x.doneCount + 1) with
    | none => x
    | some t =>
      if t.done then
        ({ x with doneCount := x.doneCount + 1, posts := x.posts.filter (fun y => y.number != t.number) } : XQueue).settle n
      else x

/-- A post has completed (R431). -/
def State.completePost (s : State) (pid q n : Nat) : State :=
  s.modProc pid (fun p => (p.modPost q n (fun t => { t with done := true })).modQueue q (fun x => x.settle x.posts.length))

/-- A post faults: DONE stays below it, and it and the later posts of the queue are discarded (R435)
(DEDUCED, log 49). -/
def State.faultPost (s : State) (pid q n : Nat) (c : Cause) : State :=
  let s := { s with remotes := s.remotes.filter (fun x => !(x.2.src == Source.relay pid q && (match x.2.msg with
    | some m => decide (n ≤ m.post)
    | none => true))) }
  let s := s.forgetSource (.relay pid (q + 8))
  s.modProc pid (fun p =>
    { p.modQueue q (fun x =>
        { x with
          fault := match x.fault with
            | some (m, d) => if m ≤ n then some (m, d) else some (n, c)
            | none => some (n, c)
          posts := x.posts.filter (fun t => decide (t.number < n)) }) with
      triggers := p.triggers.filter (fun t => t.2.1 != q || decide (t.2.2 < n)) })

/-- DST from byte `o` on, translated page by page (R435): runs of bytes with KEY and offset, all to one package
(DEDUCED, log 48). -/
def State.dstRuns (s : State) (tenant dst len o : Nat) (pkg : Option Nat) : Nat → Except Cause (Nat × List (Nat × BitVec 12 × Nat))
  | 0 => .ok (pkg.getD 0, [])
  | fuel + 1 =>
    if len ≤ o then .ok (pkg.getD 0, [])
    else
      let a := dst + o
      if 2 ^ 48 ≤ a then .error 0x24
      else match s.walkAt tenant a with
        | .bad c _ => .error c
        | .page _ _ _ _ (.phys _) => .error 0x94
        | .page p _ w _ (.remote k key off) =>
          if pkg.getD k ≠ k then .error 0x94
          else if !w then .error 0x21
          else
            let n := min (len - o) (p - a % p)
            match s.dstRuns tenant dst len (o + n) (some k) fuel with
            | .error c => .error c
            | .ok (k, l) => .ok (k, (n, key, off + a % p) :: l)

/-- A transfer fires (R435): DST is translated as the page table stands, and the transfer is ready to send or
faults (DEDUCED, log 48). -/
def State.firePost (s : State) (pid q : Nat) (t : Post) : State :=
  match s.proc? pid with
  | none => s
  | some p =>
    let runs : Except Cause (Nat × List (Nat × BitVec 12 × Nat)) :=
      if !inDevice t.dst then .error 0x94
      else if !canonDev t.dst then .error 0x24
      else s.dstRuns p.tenant (t.dst.toNat % 2 ^ 48) t.len 0 none (t.len / 4096 + 2)
    match runs with
    | .error c => s.faultPost pid q t.number c
    | .ok (pkg, l) => s.modProc pid (fun p => p.modPost q t.number (fun t => { t with fired := true, pkg, runs := l }))

/-- The condition of an unfired post holds (R435). -/
def State.postReady (s : State) (p : Proc) (q : Nat) (t : Post) : Bool :=
  match t.kind with
  | 0 => true
  | 1 => p.active && (match p.triggers.find? (fun x => x.1 == t.port) with
      | some x => x.2 == (q, t.number)
      | none => false)
    && (match (p.port t.port).bind (fun b => s.chan? b.1) with
      | some x => !x.buffer.isEmpty
      | none => false)
  | _ => decide (t.value ≤ p.xcount t.tsel t.tq)

/-- The trigger of a KIND-1 post consumes its token (R435). -/
def State.takeTrigger (s : State) (pid q : Nat) (t : Post) : State :=
  match s.proc? pid with
  | none => s
  | some p =>
    if t.kind ≠ 1 then s
    else match p.port t.port with
      | none => s
      | some (c, _) => (s.setProc pid { p with triggers := p.triggers.filter (fun x => x.2 != (q, t.number)) }).consume c 1

/-- KEY and offset of byte `o` of the message, and the bytes left in its run. -/
def runAt (l : List (Nat × BitVec 12 × Nat)) (o : Nat) : Option (Nat × BitVec 12 × Nat) :=
  match l with
  | [] => none
  | (n, key, off) :: rest => if o < n then some (n - o, key, off + o) else runAt rest (o - n)

/-- The transfer's next packet, with its bytes (DEDUCED, log 47). -/
def State.sendPacket (s : State) (pid q : Nat) (t : Post) (key : BitVec 12) (off : Nat) (b : List Byte) (psn : List Bool) :
    State :=
  match s.proc? pid with
  | none => s
  | some p =>
    let gen := s.importGen p.tenant t.pkg key
    let m : MsgPkt :=
      { src := s.selfPkg, id := s.nextReq, tenant := p.tenant, key, gen, regOff := off, srcQ := (p.queueAt q).handle
        post := t.number, off := t.sent, len := t.len, tqh := t.tqh, bytes := b, poison := psn }
    let r : RemReq :=
      { src := s.selfPkg, id := s.nextReq, agent := (Source.relay pid q).agent, tenant := p.tenant, key, gen, off
        kind := .write b psn }
    (s.addRemote { pkg := t.pkg, src := .relay pid q, req := r, msg := some m, retries := 0, waiting := false }).modProc pid
      (fun p => p.modPost q t.number (fun t =>
        { t with sent := t.sent + b.length, unacked := t.unacked ++ [t.sent], got := [], gotPsn := [] }))

/-- A relay engine serves the process: its network is not complete, no SNAPSHOT is being taken (R454), and it has not
been captured (DEDUCED, log 47). -/
def State.relayRuns (s : State) (p : Proc) : Bool :=
  s.snapshot.isNone && (match p.st with
    | .preempted _ => false
    | .dormant => false
    | _ => true)
  && (match mget s.nets p.net with
    | some n => n.st != .completed
    | none => false)

/-- Source bytes read for the next packet, of `n` bytes: it is sent once they are all there. -/
def State.gather (s : State) (pid q : Nat) (t : Post) (key : BitVec 12) (off n : Nat) (b : List Byte) (psn : List Bool) :
    State :=
  let l := t.got ++ b
  let m := t.gotPsn ++ psn
  if l.length < n then s.modProc pid (fun p => p.modPost q t.number (fun t => { t with got := l, gotPsn := m }))
  else s.sendPacket pid q t key off l m

/-- The next read of a fired transfer's source: the rest of a block of its path, for a packet of 256 bytes at most
(R365, R435). A reply to such a read is in `back`. -/
def State.sendPost (s : State) (pid q : Nat) (p : Proc) (t : Post) (back : Option Reply) : State :=
  match runAt t.runs t.sent with
  | none => s
  | some (left, key, off) =>
    let n := min 256 (min left (t.len - t.sent))
    let a := t.src + BitVec.ofNat 64 (t.sent + t.got.length)
    let m := min (n - t.got.length) (64 - a.toNat % 64)
    match back with
    | some r => (match r.cause with
      | some c => s.faultPost pid q t.number c
      | none => s.gather pid q t key off n r.bytes r.poison)
    | none =>
      if inDevice a then
        if !canonDev a then s.faultPost pid q t.number 0x24
        else
          let s := s.touchWalk p.tenant a.toNat
          match s.walkTranslate p.tenant a.toNat kRead with
          | .error (c, _) => s.faultPost pid q t.number c
          | .ok (.phys pa) => (s.sendReq (.relay pid (q + 8)) pa (.read m) p.eff).2
          | .ok (.remote pkg k o) =>
            (s.sendRemote (.relay pid (q + 8)) p.tenant pkg k o (.read (min m (32 - a.toNat % 32)))).2
      else if p.st = .retired then s
      else match p.desc.spadCheck a m with
        | some c => s.faultPost pid q t.number c
        | none =>
          let (s, b, psn, _) := s.spadRead p.tile a.toNat m
          s.gather pid q t key off n b psn

/-- Every vector entry below a number is done, its accesses performed (R434). -/
def Proc.doneBefore (p : Proc) (n : Nat) : Bool :=
  p.queue.all (fun e => decide (n ≤ e.id)) && p.tasks.all (fun t => decide (n ≤ t.id))
    && p.convoys.all (fun c => decide (n ≤ c.entry))

/-- TRANSFER_FIRE (R434, R435): a post of the queue whose condition holds fires, or the oldest fired one before which
every earlier access has been performed reads on and sends. -/
def State.transferFire (s : State) (pid q : Nat) : State :=
  match s.proc? pid with
  | none => s
  | some p =>
    let posts := (p.queueAt q).posts
    match posts.find? (fun t => !t.fired && s.postReady p q t) with
    | some t => (s.takeTrigger pid q t).firePost pid q t
    | none => match posts.find? (fun t => t.fired && decide (t.sent < t.len) && p.doneBefore t.after) with
      | none => s
      | some t =>
        if !s.relayRuns p || s.relayBusy pid (q + 8) || s.sourceWaits (.relay pid (q + 8)) then s
        else match s.takeSource (.relay pid (q + 8)) with
          | some (s, r) => s.sendPost pid q p t (some r)
          | none => s.sendPost pid q p t none

/-- TRANSFER_FIRE. -/
def execTransferFire (pid : Nat) (q : BitVec 2) (s : State) : Res := .next (s.transferFire pid q.toNat)

/-- A packet of a transfer is acknowledged (R435). -/
def State.packetDone (s : State) (pid q post off : Nat) : State :=
  let s := s.modProc pid (fun p => p.modPost q post (fun t => { t with unacked := t.unacked.erase off }))
  match s.proc? pid with
  | none => s
  | some p => match (p.queueAt q).posts.find? (fun t => t.number == post) with
    | none => s
    | some t => if t.fired ∧ t.len ≤ t.sent ∧ t.unacked = [] then s.completePost pid q post else s

/-- XPOST_PACKET_ACK (R430, R435). -/
def State.packetAck (s : State) (pid q : Nat) (a : PktAck) : State :=
  match s.remotes.find? (fun x => x.2.src == Source.relay pid q && (match x.2.msg with
      | some m => m.post == a.post && m.off == a.off
      | none => false)) with
  | none => s
  | some (id, x) => match a.rep with
    | .retry => { s with remotes := mset s.remotes id { x with waiting := true } }
    | .nak c => if carriedCause c then ({ s with remotes := mdel s.remotes id }).faultPost pid q a.post c else s
    | .done _ _ _ _ => ({ s with remotes := mdel s.remotes id }).packetDone pid q a.post a.off

/-- XPOST_PACKET_ACK. -/
def execXpostPacketAck (pid : Nat) (q : BitVec 2) (ack : PktAck) (s : State) : Res :=
  .next (s.packetAck pid q.toNat ack)

/-! ## Retries and unreachable packages (R427, R430) -/

/-- A request of this package fails with a cause. -/
def State.failRemote (s : State) (id : Nat) (x : RemotePend) (c : Cause) : State :=
  match x.msg, x.src with
  | some m, .relay pid q => ({ s with remotes := mdel s.remotes id }).faultPost pid q m.post c
  | _, _ => s.remoteDone id x { Reply.ack id x.src with cause := some c }

/-- RETRY_RESEND (R430): a request answered with retry goes out again, and fails with 0x27 after 16 retries. -/
def State.retryResend (s : State) (id : Nat) : State :=
  match mget s.remotes id with
  | none => s
  | some x =>
    if !x.waiting then s
    else if 16 ≤ x.retries then s.failRemote id x 0x27
    else
      { s with remotes := mset s.remotes id { x with waiting := false, retries := x.retries + 1 }, vout := s.vout ++ [x.packet] }

/-- RETRY_RESEND. -/
def execRetryResend (id : Nat) (s : State) : Res := .next (s.retryResend id)

/-- UNREACHABLE_TIMEOUT (R427): a request to a package without a live port fails with 0x90. -/
def State.unreachable (s : State) (id : Nat) : State :=
  match mget s.remotes id with
  | none => s
  | some x => if s.reachable x.pkg then s else s.failRemote id x 0x90

/-- UNREACHABLE_TIMEOUT. -/
def execUnreachableTimeout (id : Nat) (s : State) : Res := .next (s.unreachable id)

/-! ## XPOST and XWAIT (R433, R434, R437) -/

/-- A post joins its queue, and fires at once where its KIND says so (R434, R435). -/
def State.post (s : State) (pid q : Nat) (r : Post) : State :=
  match s.proc? pid with
  | none => s
  | some p =>
    let n := (p.queueAt q).posted + 1
    let t := { r with number := n, after := p.nextId }
    let p := p.modQueue q (fun x => { x with posted := n, posts := x.posts ++ [t] })
    let p := if t.kind = 1 then { p with triggers := p.triggers ++ [(t.port, q, n)] } else p
    let s := s.setProc pid p
    if t.kind = 1 ∨ !s.postReady p q t then s else s.firePost pid q t

/-- XPOST (R433, R434): a release at system scope. -/
def execXpost (b c : GReg) (s : State) : Res :=
  match s.proc? s.cur with
  | none => .fault .noProcess
  | some p0 =>
    s.recordWord (.xpost b c) (p0.rd b) 32 fun s p bytes =>
      match p.postCause (p.rd c) bytes with
      | some cause => (s.setCur p.dropRecord).trapCur p.dropRecord cause
      | none =>
        let q := (p.rd c).toNat
        (s.setCur p.dropRecord).released fun s p => (s.finish p).post s.cur q (postOf bytes)

/-- XWAIT (R437). -/
def execXwait (a b : GReg) (s : State) : Res :=
  s.withCur fun p =>
    let w := p.rd b
    let v := w.toNat / 2 ^ 16
    let sel := w.toNat / 16 % 4
    let q := w.toNat % 4
    if !p.xwaitOk w then s.trapCur p 0x94
    else s.unlessWaiting p (.xwait a b) (
      if v ≤ p.xcount sel q then s.finishWr p a (BitVec.ofNat 64 (p.xcount sel q))
      else match p.xfault sel q v with
        | some (n, c) => s.trapCur p c 0 (BitVec.ofNat 64 (n + (if sel = 2 then 4 else q) * 2 ^ 48))
        | none => s.parkCur p .transferWait (.xwait a b))

end Sys2Proof.Machine
end

