-- ==== Sys2Proof/Machine/Collectives.lean ====
section
/-!
DEFINITION. Collectives: XCOLL, the comparison of bindings, and the relay engine's all-reduce (R438-R440).
-/

namespace Sys2Proof.Machine

/-! ## The group (R438) -/

/-- The collective group a process's network is bound to. -/
def State.group (s : State) (p : Proc) : Option CollBind := (mget s.nets p.net).bind (·.coll)

/-- The package of the rank `k` places on. -/
def CollBind.neighbour (g : CollBind) (k : Nat) : Nat := g.digest.ranks.getD ((g.rank + k) % g.digest.devcnt) 0

/-- A collective of the process, by its number. -/
def Proc.coll? (p : Proc) (n : Nat) : Option Coll := p.colls.find? (fun c => c.number == n)

/-- A collective of the process changed. -/
def Proc.modColl (p : Proc) (n : Nat) (f : Coll → Coll) : Proc :=
  { p with colls := p.colls.map (fun c => if c.number = n then f c else c) }

/-- Collective `n` fails (R438, R440): its number and cause are kept, every package of the table gets a marker, and COLL
rises no more (DEDUCED, log 55). -/
def State.failColl (s : State) (pid n : Nat) (c : Cause) : State :=
  match s.proc? pid with
  | none => s
  | some p =>
    if (p.coll? n).isNone then s
    else
      let s := s.forgetSource (.relay pid 4)
      let s := s.setProc pid { p with
        colls := p.colls.filter (fun x => x.number != n)
        heldChunks := p.heldChunks.filter (fun x => x.n != n)
        collFault := match p.collFault with
          | some (m, d) => if m ≤ n then some (m, d) else some (n, c)
          | none => some (n, c) }
      match s.group p with
      | none => s
      | some g =>
        let others := g.digest.ranks.filter (fun k => some k != s.self)
        { s with vout := s.vout ++ others.map (fun k => Packet.marker k g.digest.tag n c) }

/-- A neighbour's digest compared (R438, R440). -/
def State.compareDigest (s : State) (pid : Nat) (p : Proc) (g : CollBind) (c : Coll) (m : DigestMsg) : State :=
  if m.digest ≠ g.digest then s.failColl pid c.number 0x95
  else if m.et ≠ c.et ∨ m.op ≠ c.op ∨ m.count ≠ c.count then s.failColl pid c.number 0x94
  else s.setProc pid (p.modColl c.number (fun c =>
    if m.fromPrev then { c with prevOk := true } else { c with nextOk := true }))

/-- DIGEST_EXCHANGE (R438): compared once the collective has been formed here. -/
def State.digestIn (s : State) (pid : Nat) (m : DigestMsg) : State :=
  match s.proc? pid with
  | none => s
  | some p =>
    if p.collIssued < m.n then s.setProc pid { p with heldDigests := p.heldDigests ++ [m] }
    else match p.coll? m.n, s.group p with
      | some c, some g => s.compareDigest pid p g c m
      | _, _ => s

/-- DIGEST_EXCHANGE. -/
def execDigestExchange (pid : Nat) (msg : DigestMsg) (s : State) : Res := .next (s.digestIn pid msg)

/-- COLL_FAILURE_MARKER (R438); one with a code that R400 keeps from being reported is no packet (DEDUCED, log 53). -/
def State.markerIn (s : State) (pid n : Nat) (c : Cause) : State :=
  match s.proc? pid with
  | none => s
  | some p =>
    if !carriedCause c then s
    else if p.collIssued < n then s.setProc pid { p with heldMarkers := p.heldMarkers ++ [(n, c)] }
    else s.failColl pid n c

/-- COLL_FAILURE_MARKER. -/
def execCollFailureMarker (pid n : Nat) (cause : Byte) (s : State) : Res := .next (s.markerIn pid n cause)

/-- What had arrived for a collective before it was formed here. -/
def State.formColl (s : State) (pid n : Nat) : State :=
  match s.proc? pid with
  | none => s
  | some p =>
    let s := s.setProc pid { p with heldDigests := p.heldDigests.filter (fun m => m.n != n)
                                    heldMarkers := p.heldMarkers.filter (fun m => m.1 != n) }
    let s := (p.heldMarkers.filter (fun m => m.1 == n)).foldl (fun s m => s.markerIn pid n m.2) s
    (p.heldDigests.filter (fun m => m.n == n)).foldl (fun s m => s.digestIn pid m) s

/-- XCOLL (R439): a release at system scope. -/
def execXcoll (b c : GReg) (s : State) : Res :=
  s.withCur fun p => match s.collCause s.cur p (p.rd b) (p.rd c) with
    | some cause => s.trapCur p cause (if cause = 0x08 then p.rd c else 0)
    | none => s.unlessWaiting p (.xcoll b c) (s.released fun s p =>
        let w := (p.rd b).toNat
        let n := p.collIssued + 1
        let k : Coll :=
          { number := n, et := BitVec.ofNat 4 (w / 2 ^ 44), op := BitVec.ofNat 2 (w / 2 ^ 42), count := w % 2 ^ 32
            addr := p.rd c, started := false, prevOk := false, nextOk := false, chunk := 0, phase := .read, bytes := []
            poison := [], written := 0 }
        (s.finish { p with collIssued := n, colls := p.colls ++ [k] }).formColl s.cur n)

/-! ## The relay engine (R440) -/

/-- Bytes of an element of a collective's type (R57, R439). -/
def collBytes (et : BitVec 4) : Nat := if et = 3 ∨ et = 7 then 8 else if et = 9 then 2 else 4

/-- One operation on two elements (R92, R211, R212, R440). -/
def collOp (et : BitVec 4) (op : BitVec 2) (x y : Nat) : Nat :=
  let w := 8 * collBytes et
  let flt := fun (F : Fmt) => if op = 0 then (F.addEnc x y).1 else F.pickEnc (op == 1) x y
  if et = 9 then flt fBf16
  else if et = 10 then flt fFp32
  else if op = 0 then (x + y) % 2 ^ w
  else
    let less := if et = 2 ∨ et = 3 then decide (signedOf w x < signedOf w y) else decide (x < y)
    if op = 1 then (if less then y else x) else if less then x else y

/-- Two chunks combined element by element; `n` elements. -/
def combine (et : BitVec 4) (op : BitVec 2) (a b : List Byte) (p q : List Bool) : Nat → List Byte × List Bool
  | 0 => ([], [])
  | n + 1 =>
    let z := collBytes et
    let x := collOp et op (leNat (a.take z)) (leNat (b.take z))
    let psn := (p.take z).any id || (q.take z).any id
    let (l, m) := combine et op (a.drop z) (b.drop z) (p.drop z) (q.drop z) n
    (leBytes z x ++ l, List.replicate z psn ++ m)

/-- Bytes of a collective's buffer. -/
def Coll.total (c : Coll) : Nat := c.count * collBytes c.et

/-- Bytes of the chunk at hand. -/
def Coll.chunkBytes (c : Coll) : Nat := min 256 (c.total - 256 * c.chunk)

/-- Every chunk has been written. -/
def Coll.past (c : Coll) : Bool := decide (c.total ≤ 256 * c.chunk)

/-- The walk for byte `o` of the chunk, as it touches memory (R302). -/
def State.collTouch (s : State) (p : Proc) (c : Coll) (o : Nat) : State :=
  s.touchWalk p.tenant (c.addr + BitVec.ofNat 64 (256 * c.chunk + o)).toNat

/-- Where byte `o` of the chunk lies, or the cause of an access there. -/
def State.collPlace (s : State) (p : Proc) (c : Coll) (o kind : Nat) : Except Cause Place :=
  let a := c.addr + BitVec.ofNat 64 (256 * c.chunk + o)
  if !canonDev a then .error 0x24
  else match s.walkTranslate p.tenant a.toNat kind with
    | .error (k, _) => .error k
    | .ok place => .ok place

/-- The next bytes of the package's own chunk read: of one block of their path (R13, R365). A reply to such a read is in
`back`. -/
def State.collRead (s : State) (pid : Nat) (p : Proc) (c : Coll) (back : Option Reply) : State :=
  let o := c.bytes.length
  match back with
  | some r => (match r.cause with
    | some k => s.failColl pid c.number k
    | none => s.modProc pid (fun p => p.modColl c.number (fun c =>
        { c with bytes := c.bytes ++ r.bytes, poison := c.poison ++ r.poison
                 phase := if c.chunkBytes ≤ o + r.bytes.length then .exchange else .read })))
  | none =>
    let s := s.collTouch p c o
    match s.collPlace p c o kRead with
    | .error k => s.failColl pid c.number k
    | .ok (.phys pa) => (s.sendReq (.relay pid 4) pa (.read (min (64 - pa % 64) (c.chunkBytes - o))) p.eff).2
    | .ok (.remote pkg key off) =>
      (s.sendRemote (.relay pid 4) p.tenant pkg key off (.read (min (32 - off % 32) (c.chunkBytes - o)))).2

/-- A chunk sent to the rank `k` places on. -/
def State.sendChunk (s : State) (g : CollBind) (k : Nat) (c : Coll) (final : Bool) (b : List Byte) (q : List Bool) : State :=
  { s with vout := s.vout ++ [.chunk (g.neighbour k) g.digest.tag { n := c.number, chunk := c.chunk, final, bytes := b, poison := q }] }

/-- Bytes of the result have been written; after the last the next chunk begins, and the last rank sends the result round
(R440). -/
def State.collWrote (s : State) (pid : Nat) (g : CollBind) (c : Coll) : State :=
  let w := c.written + c.asked
  if w < c.bytes.length then s.modProc pid (fun p => p.modColl c.number (fun c => { c with written := w }))
  else
    let s := if g.rank + 1 = g.digest.devcnt ∧ 1 < g.digest.devcnt then s.sendChunk g 1 c true c.bytes c.poison else s
    s.modProc pid (fun p => p.modColl c.number (fun c =>
      { c with chunk := c.chunk + 1, phase := .read, bytes := [], poison := [], written := 0, asked := 0 }))

/-- The next bytes of the result written: of one block of their path (R13, R365). -/
def State.collWrite (s : State) (pid : Nat) (p : Proc) (g : CollBind) (c : Coll) (back : Option Reply) : State :=
  let left := c.bytes.length - c.written
  let asks := fun (s : State) (n : Nat) => s.modProc pid (fun p => p.modColl c.number (fun c => { c with asked := n }))
  match back with
  | some r => (match r.cause with
    | some k => s.failColl pid c.number k
    | none => s.collWrote pid g c)
  | none =>
    let s := s.collTouch p c c.written
    match s.collPlace p c c.written kWrite with
    | .error k => s.failColl pid c.number k
    | .ok (.phys pa) =>
      let n := min (64 - pa % 64) left
      asks (s.sendReq (.relay pid 4) pa (.write ((c.bytes.drop c.written).take n) ((c.poison.drop c.written).take n)) p.eff).2 n
    | .ok (.remote pkg key off) =>
      let n := min (32 - off % 32) left
      asks (s.sendRemote (.relay pid 4) p.tenant pkg key off
        (.write ((c.bytes.drop c.written).take n) ((c.poison.drop c.written).take n))).2 n

/-- The chunk a neighbour has sent, taken. -/
def Proc.takeChunk (p : Proc) (c : Coll) (final : Bool) : Option (ChunkMsg × Proc) :=
  let mine := fun (m : ChunkMsg) => m.n == c.number && m.chunk == c.chunk && m.final == final
  match p.heldChunks.find? mine with
  | none => none
  | some m => some (m, { p with heldChunks := p.heldChunks.filter (fun x => !mine x) })

/-- What a rank does with its own chunk: rank 0 sends it on, any other combines it with what has come (R440)
(DEDUCED, log 55). -/
def State.collExchange (s : State) (pid : Nat) (p : Proc) (g : CollBind) (c : Coll) : State :=
  let d := g.digest.devcnt
  let turn := fun (p : Proc) (ph : RelayPhase) (b : List Byte) (q : List Bool) =>
    p.modColl c.number (fun c => { c with phase := ph, bytes := b, poison := q, written := 0 })
  if g.rank = 0 then
    if d ≤ 1 then s.setProc pid (turn p .write c.bytes c.poison)
    else (s.setProc pid (turn p .final c.bytes c.poison)).sendChunk g 1 c false c.bytes c.poison
  else match p.takeChunk c false with
    | none => s
    | some (m, p) =>
      let (b, q) := combine c.et c.op m.bytes c.bytes m.poison c.poison (c.bytes.length / collBytes c.et)
      if g.rank + 1 < d then (s.setProc pid (turn p .final b q)).sendChunk g 1 c false b q
      else s.setProc pid (turn p .write b q)

/-- The final result of a chunk has come: it is passed on and then written (R440). -/
def State.collFinal (s : State) (pid : Nat) (p : Proc) (g : CollBind) (c : Coll) : State :=
  match p.takeChunk c true with
  | none => s
  | some (m, p) =>
    let s := s.setProc pid (p.modColl c.number (fun c =>
      { c with phase := .write, bytes := m.bytes, poison := m.poison, written := 0 }))
    if g.rank + 2 < g.digest.devcnt then s.sendChunk g 1 c true m.bytes m.poison else s

/-- The oldest collective of a process, one step further (R438, R440): it starts with the exchange of digests, and once
both neighbours agree goes through its chunks. -/
def State.relayStep (s : State) (pid : Nat) : State :=
  match s.proc? pid with
  | none => s
  | some p => match p.colls.head?, s.group p with
    | some c, some g =>
      if !s.relayRuns p || s.relayBusy pid 4 then s
      else if !c.started then
        let alone := decide (g.digest.devcnt ≤ 1)
        let s := s.setProc pid (p.modColl c.number (fun c =>
          { c with started := true, prevOk := c.prevOk || alone, nextOk := c.nextOk || alone }))
        if alone then s
        else
          let m : DigestMsg := { n := c.number, fromPrev := true, digest := g.digest, et := c.et, op := c.op, count := c.count }
          { s with vout := s.vout ++ [.digest (g.neighbour 1) g.digest.tag m,
              .digest (g.neighbour (g.digest.devcnt - 1)) g.digest.tag { m with fromPrev := false }] }
      else if !c.prevOk || !c.nextOk || c.past || s.sourceWaits (.relay pid 4) then s
      else
        let (s, back) := match s.takeSource (.relay pid 4) with
          | some (s, r) => (s, some r)
          | none => (s, none)
        match c.phase with
        | .read => s.collRead pid p c back
        | .exchange => s.collExchange pid p g c
        | .final => s.collFinal pid p g c
        | .write => s.collWrite pid p g c back
    | _, _ => s

/-- COLLECTIVE_START (R438, R440). -/
def execCollectiveStart (pid : Nat) (s : State) : Res := .next (s.relayStep pid)

/-- RELAY_CHUNK (R440): a chunk arrives, and is taken when the engine is there. -/
def execRelayChunk (pid : Nat) (msg : ChunkMsg) (s : State) : Res :=
  .next ((s.modProc pid (fun p => { p with heldChunks := p.heldChunks ++ [msg] })).relayStep pid)

/-- COLLECTIVE_COMPLETE (R440): every write has been performed and COLL rises, unless an earlier collective failed. -/
def State.collComplete (s : State) (pid : Nat) : State :=
  match s.proc? pid with
  | none => s
  | some p => match p.colls.head? with
    | none => s
    | some c =>
      if !c.started || !c.prevOk || !c.nextOk || !c.past then s
      else s.setProc pid { p with colls := p.colls.drop 1, coll := if p.collFault.isNone then p.coll + 1 else p.coll }

/-- COLLECTIVE_COMPLETE. -/
def execCollectiveComplete (pid : Nat) (s : State) : Res := .next (s.collComplete pid)

end Sys2Proof.Machine
end

