-- ==== Sys2Proof/Machine/HostPort.lean ====
section
/-!
DEFINITION. The host functions: inlets, outlets and the other locations of BAR0, the memory window, MSI-X, notices of
discarded accesses and the fault channel (R402, R403, R442-R447, R455).
-/

namespace Sys2Proof.Machine

/-! ## Discarded accesses (R405, R444) -/

/-- A 16-bit counter that saturates. -/
def sat16 (x : BitVec 16) : BitVec 16 := if x = 0xFFFF then x else x + 1

/-- The notice word of discards of a kind, as it stands (R405). -/
def discardWord (d : Discard) : Word :=
  noticeWord 0xC3 3 0 (d.kind % 8 * 2 ^ 45 + min d.count 511 * 2 ^ 36 + d.off % 2 ^ 36)

/-- A token of the fault channel (R402). -/
def faultToken (x : Word) : Token := promptToken x 128

/-- Head of a notice with no process behind it (R405). -/
def bareHead : Word := recordHead 3 0 0xFF 0xFFF 0 0

/-- Tokens put on FAULTOUT; its vector fires when it had none (R442). -/
def Fn.putFault (f : Fn) (l : List Token) : Fn :=
  let f' := { f with fault := f.fault ++ l }
  if f.fault.isEmpty && !l.isEmpty then f'.signal 1 else f'

/-- FAULTOUT of a function without a tenant takes what waits for it, each notice whole; `n` at most (R26, R444). -/
def Fn.settleNotices (f : Fn) : Nat → Fn
  | 0 => f
  | n + 1 => match f.faultWait, f.discards with
    | t :: l, _ => if 256 ≤ f.fault.length then f else ({ f with faultWait := l }.putFault [t]).settleNotices n
    | [], d :: l =>
      if 256 < f.fault.length + 2 then f
      else ({ f with discards := l }.putFault [faultToken bareHead, faultToken (discardWord d)]).settleNotices n
    | [], [] => f

/-- The same, of a function; one with a tenant sends them through its fault record. -/
def Fn.notices (f : Fn) : Fn := if f.tenant.isSome then f else f.settleNotices (f.faultWait.length + f.discards.length)

/-- A host access of a kind was discarded: it joins the notice of its kind not yet delivered, or begins one (R444). A
function without a tenant sends its notice itself. -/
def State.discard (s : State) (fn kind off : Nat) : State :=
  let f := s.fn fn
  if f.discards.any (fun d => d.kind == kind) then
    s.modFn fn (fun f => { f with
      discards := f.discards.map (fun d => if d.kind = kind then { d with count := min (d.count + 1) 511 } else d) })
  else
    let s := s.modFn fn (fun f => { f with discards := f.discards ++ [({ kind, count := 1, off } : Discard)] }.notices)
    match f.tenant with
    | some t => s.enterToks t [{ word := bareHead, discard := none }, { word := 0, discard := some kind }]
    | none => s

/-- A malformed access, counted and reported (R444, R445, R447). -/
def State.badAccess (s : State) (fn kind off : Nat) : State :=
  (s.modFn fn (fun f => { f with badw := sat16 f.badw })).discard fn kind off

/-! ## The fault channel (R402, R403) -/

/-- Records of the reserve join the queue as they fit; `n` at most. -/
def Tenant.refill (t : Tenant) : Nat → Tenant
  | 0 => t
  | n + 1 => match t.reserve with
    | [] => t
    | r :: rest =>
      if t.faultq.length + r.length ≤ 4096 then { t with faultq := t.faultq ++ r, reserve := rest }.refill n else t

/-- FAULT_RECORD_DELIVER (R403): the oldest queued token goes to the fault channel, where that has a slot. -/
def State.faultDeliver (s : State) (tenant : Nat) : State :=
  match mget s.tenants tenant with
  | none => s
  | some t => match t.faultq with
    | [] => s
    | x :: rest =>
      let f := s.fn t.fn
      if 256 ≤ f.fault.length then s
      else
        let w : Word := match x.discard with
          | none => x.word
          | some k => match f.discards.find? (fun d => d.kind == k) with
            | some d => discardWord d
            | none => x.word
        let f' := match x.discard with
          | none => f
          | some k => { f with discards := f.discards.filter (fun d => d.kind != k) }
        { s with tenants := mset s.tenants tenant ({ t with faultq := rest }.refill (t.reserve.length))
                 fns := mset s.fns t.fn (f'.putFault [faultToken w]) }

/-- FAULT_RECORD_DELIVER. -/
def execFaultRecordDeliver (tenant : Nat) (s : State) : Res := .next (s.faultDeliver tenant)

/-! ## Slots (R442, R443, R446) -/

/-- The entry of BAR0 a slot's channel has: its first byte and its length. -/
def slotEntry (n : Nat) (wide : Bool) : Nat × Nat := (0x1000 + 0x100 * n, if wide then 128 else 16)

/-- The inlets of a function (true) or its outlets: slot, channel number and channel (R446). -/
def State.slotsOf (s : State) (fn : Nat) (inlet : Bool) : List (Nat × Nat × Chan) :=
  (s.fn fn).slots.filterMap (fun x =>
    if x.2.hostProduces = inlet then (s.chan? x.2.chan).map (fun c => (x.1, x.2.chan, c)) else none)

/-- A range of `n` bytes at `off` touches an entry. -/
def touches (off n : Nat) (e : Nat × Nat) : Bool := decide (off < e.1 + e.2) && decide (e.1 < off + n)

/-- The inlet's producer. -/
def Chan.hostProd (x : Chan) (fn slot : Nat) : Option (Nat × Producer) :=
  match x.prodOf (.host fn slot) with
  | none => none
  | some k => (x.prods[k]?).map (fun d => (k, d))

/-- Credits of an inlet slot. -/
def Chan.hostCredits (x : Chan) (fn slot : Nat) : Nat :=
  match x.hostProd fn slot with
  | some (_, d) => d.credits
  | none => 0

/-- The token a host writes (R443): 8 or 64 data bytes and the tag behind them. -/
def hostToken (b : List Byte) (wide poison : Bool) : Token :=
  let n := if wide then 64 else 8
  { data := b.take n, tag := b.getD n 0, poison := List.replicate (if wide then 8 else 1) poison }

/-! ## Posted writes and window reads (R447) -/

/-- The pieces of a window access, translated; none where it is refused. -/
def State.windowPieces (s : State) (tenant va n kind : Nat) : Option (List (Nat × Nat)) :=
  (cutRange va n 64 (n / 64 + 2)).mapM (fun x => match s.walkTranslate tenant x.1 kind with
    | .ok (.phys pa) => some (pa, x.2)
    | _ => none)

/-- The walks of a window access, as they touch memory (R302). -/
def State.touchPieces (s : State) (tenant va n : Nat) : State :=
  (cutRange va n 64 (n / 64 + 2)).foldl (fun s x => s.touchWalk tenant x.1) s

/-- The line requests of a window write, sent: their numbers (DEDUCED, log 51). -/
def State.sendPieces (s : State) (fn : Nat) (poison : Bool) : List Byte → List (Nat × Nat) → List Nat × State
  | _, [] => ([], s)
  | b, (pa, n) :: l =>
    let (id, s) := s.sendReq (.fn fn) pa (.write (b.take n) (List.replicate n poison)) 0
    let (ids, s) := s.sendPieces fn poison (b.drop n) l
    (id :: ids, s)

/-- A command token at CMDIN (R444, R448). -/
def State.putCommand (s : State) (fn : Nat) (t : Token) : State :=
  (s.modFn fn (fun f => { f with cmdin := f.cmdin ++ [t] })).settleFn fn

/-- Pending vectors that are no longer masked send their messages. -/
def Fn.unmask (f : Fn) : Fn :=
  (List.range 20).foldl (fun f v =>
    if f.pba.getLsbD v && !f.masked v then { f with pba := f.pba &&& ~~~(1#20 <<< v), irqs := f.irqs ++ [v] } else f) f

/-- A write of BAR0 outside the inlet entries; only the MSI-X table takes it (R442). -/
def Fn.writeTable (f : Fn) (off : Nat) (b : List Byte) : Fn :=
  { f with msix := b.zipIdx.foldl (fun (m : Memory) (x : Byte × Nat) =>
      let a := off + x.2
      if 0x4000 ≤ a ∧ a < 0x4140 then memPut m (a - 0x4000) x.1 else m) f.msix }.unmask

/-- The oldest posted write is translated and sent, and the next follows once it has been performed; a token enters its
channel behind every write before it (R447); `n` at most. -/
def State.settlePosted (s : State) (fn : Nat) : Nat → State
  | 0 => s
  | n + 1 => match (s.fn fn).posted with
    | [] => s
    | x :: rest =>
      let popped := s.modFn fn (fun f => { f with posted := rest })
      match x with
      | .window va off b poison none =>
        let s := s.touchPieces ((s.fn fn).tenant.getD 0) va b.length
        let popped := s.modFn fn (fun f => { f with posted := rest })
        match (s.fn fn).tenant.bind (fun t => s.windowPieces t va b.length kWrite) with
        | none => (popped.badAccess fn 3 off).settlePosted fn n
        | some [] => popped.settlePosted fn n
        | some l =>
          let (ids, s) := s.sendPieces fn poison b l
          s.modFn fn (fun f => { f with posted := .window va off b poison (some ids) :: rest })
      | .window _ _ _ _ (some ids) => if ids.isEmpty then popped.settlePosted fn n else s
      | .bar0 off b => (popped.modFn fn (·.writeTable off b)).settlePosted fn n
      | .token c k t => (popped.launch c k t).settlePosted fn n
      | .command t => (popped.putCommand fn t).settlePosted fn n

/-- A write joins those of its function. -/
def State.post? (s : State) (fn : Nat) (x : Posted) : State :=
  let s := s.modFn fn (fun f => { f with posted := f.posted ++ [x] })
  s.settlePosted fn (s.fn fn).posted.length

/-! ## INLET_WRITE (R444) -/

/-- A command token at CMDIN (R444, R448, R455). -/
def State.cmdinWrite (s : State) (fn : Nat) (b : List Byte) (poison : Bool) : State :=
  let t := hostToken b false poison
  if !s.ready then s
  else if 128 ≤ t.tag.toNat then s.badAccess fn 1 0
  else if (s.fn fn).cmdCredits = 0 then (s.modFn fn (fun f => { f with ovr := sat16 f.ovr })).discard fn 0 0
  else (s.modFn fn (fun f => { f with cmdCredits := f.cmdCredits - 1 })).post? fn (.command t)

/-- A token at an inlet slot (R444). -/
def State.slotWrite (s : State) (fn slot c : Nat) (x : Chan) (b : List Byte) (poison : Bool) : State :=
  let off := (slotEntry slot x.wide).1
  let t := hostToken b x.wide poison
  if 128 ≤ t.tag.toNat then s.badAccess fn 1 off
  else match x.hostProd fn slot with
    | none => s
    | some (k, d) =>
      if d.credits = 0 then (s.modFn fn (fun f => { f with ovr := sat16 f.ovr })).discard fn 0 off
      else (s.spend c k 1).post? fn (.token c k t)

/-- INLET_WRITE (R444): a write that touches an inlet entry; one of any other extent than the whole entry is
malformed (DEDUCED, log 57). -/
def State.inletWrite (s : State) (fn off : Nat) (b : List Byte) (poison : Bool) : State :=
  let n := b.length
  if touches off n (0, 16) then
    if off = 0 ∧ n = 16 then s.cmdinWrite fn b poison else s.badAccess fn 1 off
  else match (s.slotsOf fn true).find? (fun x => touches off n (slotEntry x.1 x.2.2.wide)) with
    | none => s
    | some (slot, c, x) =>
      if (off, n) = slotEntry slot x.wide then s.slotWrite fn slot c x b poison else s.badAccess fn 1 off

/-- INLET_WRITE. -/
def execInletWrite (fn off : Nat) (bytes : List Byte) (poison : Bool) (s : State) : Res :=
  .next (s.inletWrite fn off bytes poison)

/-! ## OUTLET_READ (R442, R443, R445) -/

/-- A completion given to the host. -/
def State.complete (s : State) (c : Completion) : State := { s with completions := s.completions ++ [c] }

/-- The entry an outlet returns for a token, and whether it is poisoned (R443, R445). -/
def outletBytes (t : Token) (wide : Bool) : List Byte × Bool :=
  let psn := t.poison.any id
  let n := if wide then 64 else 8
  let b := t.data.take n ++ List.replicate (n - t.data.length) 0
  (b ++ [t.tag, if psn then 3 else 1] ++ List.replicate (if wide then 62 else 6) 0, psn)

/-- FSTAT (R442). -/
def State.fstat (s : State) (f : Fn) : Word :=
  BitVec.ofNat 64 (s.ready.toNat * 2 ^ 63 + s.hot.toNat * 2 ^ 62
    + (match f.tenant with
      | some t => 2 ^ 55 + t % 32 * 2 ^ 50
      | none => 0)
    + f.ovr.toNat * 2 ^ 16 + f.badw.toNat)

/-- A byte of a register at an offset, where it is one. -/
def regByte (base n : Nat) (x : Nat) (off : Nat) : Option Byte :=
  if base ≤ off ∧ off < base + n then some (BitVec.ofNat 8 (x / 2 ^ (8 * (off - base)))) else none

/-- A byte of BAR0 outside the outlet entries; a location with no behaviour reads as zero (R442). -/
def State.bar0Byte (s : State) (fn off : Nat) : Byte :=
  let f := s.fn fn
  let credit := (s.slotsOf fn true).findSome? (fun x => regByte (0x1080 + 0x100 * x.1) 8 (x.2.2.hostCredits fn x.1 % 65536) off)
  ((((regByte 0x10 8 f.cmdCredits off).or (regByte 0x18 8 (s.fstat f).toNat off)).or credit).or
    ((if 0x4000 ≤ off ∧ off < 0x4140 then some (memByte f.msix (off - 0x4000)) else none).or
      (regByte 0x5000 8 f.pba.toNat off))).getD 0

/-- The host takes the token of an outlet slot (R445). -/
def State.slotRead (s : State) (c : Nat) (x : Chan) : State :=
  match x.buffer with
  | [] => s.complete (.data (List.replicate (if x.wide then 128 else 16) 0) false)
  | (_, t) :: _ =>
    let (b, psn) := outletBytes t x.wide
    (s.consume c 1).complete (.data b psn)

/-- The host takes a token of REPLYOUT; waiting replies move up (R445, R448). -/
def State.replyRead (s : State) (fn : Nat) : State :=
  match (s.fn fn).reply with
  | [] => s.complete (.data (List.replicate 16 0) false)
  | t :: rest =>
    let s := s.modFn fn (fun f =>
      let f' := { f with reply := rest }.settleReplies f.replyWait.length
      if rest.isEmpty && !f'.reply.isEmpty then f'.signal 0 else f')
    (s.complete (.data (outletBytes t false).1 false)).settleFn fn

/-- The host takes a token of FAULTOUT (R445). -/
def State.faultRead (s : State) (fn : Nat) : State :=
  match (s.fn fn).fault with
  | [] => s.complete (.data (List.replicate 16 0) false)
  | t :: rest =>
    (s.modFn fn (fun f => { f with fault := rest }.notices)).complete (.data (outletBytes t false).1 false)

/-- OUTLET_READ (R442, R445): a read of BAR0. One that touches an outlet entry without covering it whole returns zero and
is malformed. -/
def State.outletRead (s : State) (fn off n : Nat) : State :=
  let zero := Completion.data (List.replicate n 0) false
  if touches off n (0x100, 16) then
    if off = 0x100 ∧ n = 16 then s.replyRead fn else (s.badAccess fn 2 off).complete zero
  else if touches off n (0x200, 16) then
    if off = 0x200 ∧ n = 16 then s.faultRead fn else (s.badAccess fn 2 off).complete zero
  else match (s.slotsOf fn false).find? (fun x => touches off n (slotEntry x.1 x.2.2.wide)) with
    | some (slot, c, x) =>
      if (off, n) = slotEntry slot x.wide then s.slotRead c x else (s.badAccess fn 2 off).complete zero
    | none => s.complete (.data ((List.range n).map (fun i => s.bar0Byte fn (off + i))) false)

/-- OUTLET_READ. -/
def execOutletRead (fn off len : Nat) (s : State) : Res := .next (s.outletRead fn off len)

/-! ## MSI-X (R442) -/

/-- MSIX_TABLE_WRITE (R442), in its place among the function's writes (R447). -/
def execMsixTableWrite (fn off : Nat) (bytes : List Byte) (s : State) : Res := .next (s.post? fn (.bar0 off bytes))

/-! ## The memory window (R447) -/

/-- The address a window access begins at; none where the base is not set or the access leaves the window. -/
def State.windowAt (s : State) (fn off n : Nat) : Option (Nat × Nat) :=
  match (s.fn fn).tenant, (s.fn fn).window with
  | some t, some w => if 2 ^ 36 < off + n then none else some (t, w + off)
  | _, _ => none

/-- WINDOW_READ (R447): the line requests of its 64-byte pieces are sent; refused as Unsupported Request
(DEDUCED, log 51). -/
def State.windowRead (s : State) (fn off n : Nat) : State :=
  let at0 := s.windowAt fn off n
  let s := at0.elim s (fun x => s.touchPieces x.1 x.2 n)
  match at0.bind (fun x => s.windowPieces x.1 x.2 n kRead) with
  | none => (s.badAccess fn 3 off).complete .unsupported
  | some [] => s.complete (.data [] false)
  | some l =>
    let (ids, s) := l.foldl (fun (acc : List Nat × State) x =>
      let (id, s) := acc.2.sendReq (.fn fn) x.1 (.read x.2) 0
      (acc.1 ++ [id], s)) ([], s)
    s.modFn fn (fun f => { f with reads := f.reads ++ [ids.map (fun id => (id, none))] })

/-- WINDOW_READ. -/
def execWindowRead (fn off len : Nat) (s : State) : Res := .next (s.windowRead fn off len)

/-- WINDOW_WRITE (R447): in its place among the function's writes, performed, or discarded whole (DEDUCED, log 57). -/
def State.windowWrite (s : State) (fn off : Nat) (b : List Byte) (poison : Bool) : State :=
  match s.windowAt fn off b.length with
  | none => s.badAccess fn 3 off
  | some (_, va) => s.post? fn (.window va off b poison none)

/-- WINDOW_WRITE. -/
def execWindowWrite (fn off : Nat) (bytes : List Byte) (poison : Bool) (s : State) : Res :=
  .next (s.windowWrite fn off bytes poison)

/-- What a reply brings to the reads of a function, and to the write that waits for it. -/
def Fn.takeReply (f : Fn) (r : Reply) : Fn :=
  { f with
    reads := f.reads.map (fun l => l.map (fun x => if x.1 = r.id then (x.1, some (r.bytes, r.poison.any id)) else x))
    posted := f.posted.map (fun (x : Posted) => match x with
      | .window va off b psn (some ids) => Posted.window va off b psn (some (ids.filter (· != r.id)))
      | x => x) }

/-- The bytes of a read all of whose pieces have come, and whether one is poisoned. -/
def wholeRead (l : List (Nat × Option (List Byte × Bool))) : Option (List Byte × Bool) :=
  (l.mapM (fun (x : Nat × Option (List Byte × Bool)) => x.2)).map (fun (m : List (List Byte × Bool)) => (m.flatMap (·.1), m.any (·.2)))

/-- A reply for a function, taken: a read whose pieces are all there completes, and the writes go on (R447). -/
def State.hostReply (s : State) (fn : Nat) : State :=
  match s.takeSource (.fn fn) with
  | none => s
  | some (s, r) =>
    let s := s.modFn fn (·.takeReply r)
    let f := s.fn fn
    let s := (f.reads.filterMap wholeRead).foldl (fun (s : State) x => s.complete (.data x.1 x.2)) s
    (s.modFn fn (fun f => { f with reads := f.reads.filter (fun l => (wholeRead l).isNone) })).settlePosted fn f.posted.length

/-- CONFIGURATION_REQUEST (R455): answered with Configuration Request Retry Status until boot has finished
(DEDUCED, log 80). -/
def execConfigurationRequest (_fn : Nat) (s : State) : Res :=
  .next (s.complete (if s.ready then .configDone else .configRetry))

end Sys2Proof.Machine
end

