-- ==== Sys2Proof/Machine/Sha.lean ====
section
/-!
DEFINITION. SHA-256, by which images are checked and fuses reported (R51, R79, R456). The constants are computed from
what they stand for: fractions of the square and cube roots of the primes.
-/

namespace Sys2Proof.Machine

/-! ## Constants -/

/-- The largest number of `n` bits whose `k`-th power is at most `x`. -/
def rootFloor (k x : Nat) : Nat → Nat
  | 0 => 0
  | n + 1 =>
    let hi := rootFloor k (x / 2 ^ k) n
    let r := 2 * hi + 1
    if r ^ k ≤ x then r else 2 * hi

/-- The first 32 bits behind the point of the `k`-th root of a number below 512. -/
def rootFraction (k p : Nat) : BitVec 32 := BitVec.ofNat 32 (rootFloor k (p * 2 ^ (32 * k)) 42)

/-- A number with no divisor from 2 below it. -/
def isPrime (p : Nat) : Bool := decide (2 ≤ p) && (List.range p).all (fun d => decide (d < 2) || decide (p % d ≠ 0))

/-- The 64 primes below 312. -/
def shaPrimes : List Nat := (List.range 312).filter isPrime

/-! ## The compression -/

/-- The chaining value, as two shift registers of four words, newest first. -/
structure Sha where
  top : List (BitVec 32)
  low : List (BitVec 32)
  deriving DecidableEq, Repr

/-- Before the first block. -/
def Sha.init : Sha :=
  let l := (shaPrimes.take 8).map (rootFraction 2)
  { top := l.take 4, low := l.drop 4 }

/-- A word under three rotations, added without carry. -/
def turnSum (w : BitVec 32) (l : List Nat) : BitVec 32 := l.foldl (fun x n => x ^^^ w.rotateRight n) 0

/-- A round: both registers move on. `feed` is the round's constant with its word of the schedule. -/
def Sha.shift (x : Sha) (feed : BitVec 32) : Sha :=
  match x.top, x.low with
  | [a, b, c, d], [e, f, g, h] =>
    let pick := g ^^^ (e &&& (f ^^^ g))
    let two := (b &&& c) ||| (a &&& (b ||| c))
    let u := feed + h + pick + turnSum e [6, 11, 25]
    { top := [u + two + turnSum a [2, 13, 22], a, b, c], low := [d + u, e, f, g] }
  | _, _ => x

/-- The schedule of a block, newest first: `n` words more. -/
def shaSchedule (w : List (BitVec 32)) : Nat → List (BitVec 32)
  | 0 => w
  | n + 1 =>
    let back := fun k => w.getD (k - 1) 0
    let near := turnSum (back 2) [17, 19] ^^^ (back 2 >>> 10)
    let far := turnSum (back 15) [7, 18] ^^^ (back 15 >>> 3)
    shaSchedule ((near + back 7 + far + back 16) :: w) n

/-- Sixteen words of 64 bytes, the first byte of a word the highest, newest word first. -/
def shaWords (l : List Byte) : List (BitVec 32) :=
  (List.range 16).foldl (fun w i =>
    BitVec.ofNat 32 (((l.drop (4 * i)).take 4).foldl (fun x b => x * 256 + b.toNat) 0) :: w) []

/-- One block taken in. -/
def Sha.block (x : Sha) (l : List Byte) : Sha :=
  let w := (shaSchedule (shaWords l) 48).reverse
  let y := (w.zip (shaPrimes.map (rootFraction 3))).foldl (fun y p => y.shift (p.1 + p.2)) x
  { top := List.zipWith (· + ·) x.top y.top, low := List.zipWith (· + ·) x.low y.low }

/-- The blocks of a padded message; `n` blocks. -/
def shaBlocks (x : Sha) (l : List Byte) : Nat → Sha
  | 0 => x
  | n + 1 => shaBlocks (x.block l) (l.drop 64) n

/-- Bytes of a value, the highest first. -/
def beBytes (n x : Nat) : List Byte := (leBytes n x).reverse

/-- SHA-256 of bytes: 32 bytes. -/
def sha256 (l : List Byte) : List Byte :=
  let n := l.length
  let pad := (119 - n % 64) % 64
  let x := shaBlocks Sha.init (l ++ [0x80] ++ List.replicate pad 0 ++ beBytes 8 (8 * n)) ((n + pad + 9) / 64)
  (x.top ++ x.low).flatMap (fun w => beBytes 4 w.toNat)

end Sys2Proof.Machine
end

