-- ==== Sys2Proof/Machine/Image.lean ====
section
/-!
DEFINITION. The Hordom image: its header, directory and records, the checks of rows 2 to 4 of NET.CREATE, the logical
dies, and the reproducibility signature (R28-R30, R34, R36, R51, R52, R79-R82, R147, R153, R159, R275).
-/

namespace Sys2Proof.Machine

/-- Bits `hi` to `lo` of a number. -/
def bits (x hi lo : Nat) : Nat := x / 2 ^ lo % 2 ^ (hi + 1 - lo)

/-- The little-endian number in `n` bytes at an offset. -/
def leAt (b : List Byte) (off n : Nat) : Nat := leNat ((b.drop off).take n)

/-! ## Records -/

/-- A channel record (R81). -/
structure ChanRec where
  plproc : Nat
  pport : Nat
  clproc : Nat
  cport : Nat
  slots : Nat
  wide : Bool
  merge : Bool
  chan : Nat
  resv : Nat
  deriving DecidableEq, Repr

/-- A span-ring record (R82). -/
structure RingRec where
  ldie : Nat
  ly : Nat
  lx : List Nat
  deriving DecidableEq, Repr

/-- A TEXT, DATA or DEV section (R83). -/
structure Section where
  type : Nat
  vaddr : Nat
  memsize : Nat
  data : List Byte
  deriving DecidableEq, Repr

/-- An image. -/
structure Image where
  descs : List Desc
  chans : List ChanRec
  boxes : List Nat
  rings : List RingRec
  sections : List Section
  digest : List Byte
  /-- Its records are well formed as far as each shows by itself (R29, R81, R82). -/
  sound : Bool
  deriving DecidableEq, Repr

/-- A descriptor from its four doublewords, and whether it is well formed (R28, R29). -/
def descOf (b : List Byte) : Desc × Bool :=
  let d0 := leAt b 0 8
  let d1 := leAt b 8 8
  let d2 := leAt b 16 8
  let d : Desc :=
    { entry := BitVec.ofNat 64 (bits d0 51 0), lproc := bits d1 63 52, lx := bits d1 51 48, ly := bits d1 47 45
      ldie := bits d1 44 42, prio := bits d1 41 39, vregs := bits d1 38 36, bufs := bits d1 35 32, rows := bits d1 31 22
      accs := bits d1 21 19, sigchk := d1.testBit 18, encore := d1.testBit 17, fport := bits d1 16 13
      fpen := d1.testBit 12, evbase := bits d2 63 56, evcnt := bits d2 55 47, spbase := bits d2 46 38
      spsize := bits d2 37 28, arg := BitVec.ofNat 64 (leAt b 24 8) }
  (d, bits d0 63 52 == 0 && bits d1 11 0 == 0 && bits d2 27 0 == 0 && decide (d.lx ≤ 11)
    && (decide (d.ldie ≤ 3) || d.ldie == 7) && decide (d.vregs ≤ 6) && decide (d.bufs ≤ 8) && decide (d.rows ≤ 512)
    && decide (d.accs ≤ 4) && decide (d.evcnt ≤ 256) && decide (d.spsize ≤ 512) && d.entry.toNat % 4 == 0
    && canonDev d.entry && decide (d.evbase + d.evcnt ≤ 256) && decide (d.spbase + d.spsize ≤ 512)
    && (d.vregs != 0 || (d.bufs == 0 && d.rows == 0)) && (d.vregs == 0 || decide (4 * d.vregs + d.bufs ≤ d.rows)))

/-- A channel record from its two doublewords, and whether its reserved fields are zero (R81); what a nonzero one
means the spec does not say, and row 4 then refuses the image (DESIGN CHOICE, log 85). -/
def chanRecOf (b : List Byte) : ChanRec × Bool :=
  let x := leAt b 0 8
  let y := leAt b 8 8
  ({ plproc := bits x 63 52, pport := bits x 51 48, clproc := bits x 47 36, cport := bits x 35 32, slots := bits x 31 19
     wide := x.testBit 18, merge := x.testBit 17, chan := bits y 63 44, resv := bits y 43 38 },
    bits x 16 0 == 0 && bits y 37 0 == 0)

/-- No element stands twice. -/
def distinct : List Nat → Bool
  | [] => true
  | x :: l => !l.contains x && distinct l

/-- A ring record from its word, and whether it is well formed (R82), its reserved bits zero (DESIGN CHOICE, log 85). -/
def ringRecOf (b : List Byte) : RingRec × Bool :=
  let w := leAt b 0 8
  let len := bits w 52 48
  let lx := (List.range (min len 12)).map (fun k => bits w (4 * k + 3) (4 * k))
  ({ ldie := bits w 58 56, ly := bits w 55 53, lx },
    bits w 63 59 == 0 && [2, 3, 4, 6, 12].contains len && (decide (bits w 58 56 ≤ 3) || bits w 58 56 == 7)
      && bits w 47 0 / 2 ^ (4 * len) == 0 && lx.all (· ≤ 11) && distinct lx)

/-- Records of `z` bytes; `n` of them (DEDUCED, log 78). -/
def records (b : List Byte) (z : Nat) : Nat → List (List Byte)
  | 0 => []
  | n + 1 => b.take z :: records (b.drop z) z n

/-! ## Header and directory (R79, R80) -/

/-- A directory entry that passes R80 by itself: its type, count, VADDR, MEMSIZE and bytes. -/
structure DirEntry where
  type : Nat
  count : Nat
  vaddr : Nat
  memsize : Nat
  data : List Byte
  deriving DecidableEq, Repr

/-- Record size of a table section; 0 for the other types. -/
def recordSize (type : Nat) : Nat := if type = 1 then 32 else if type = 2 then 16 else if type = 3 ∨ type = 4 then 8 else 0

/-- A directory entry checked against its type (R34 row 2, R79, R80), its reserved bits zero (DESIGN CHOICE, log 85). -/
def dirEntry (img : List Byte) (k : Nat) : Option DirEntry :=
  let e := leNat ((img.drop (32 + 32 * k)).take 32)
  let type := bits e 15 0
  let count := bits e 63 32
  let off := bits e 95 64
  let size := bits e 127 96
  let va := bits e 179 128
  let mem := bits e 255 192
  let ok := bits e 191 180 == 0 && bits e 31 16 == 0 && decide (off + size ≤ img.length)
    && (if recordSize type ≠ 0 then va == 0 && mem == 0 && size == count * recordSize type
        else if type = 0x10 ∨ type = 0x11 ∨ type = 0x12 then
          count == 0 && (type != 0x12 || size == 0) && va % 4096 == 0 && canonDev (BitVec.ofNat 64 va) && decide (size ≤ mem)
        else type == 0x20 && count == 0 && va == 0 && mem == 0)
  if ok then some { type, count, vaddr := va, memsize := mem, data := (img.drop off).take size } else none

/-- Ranges `(base, length)` meet. -/
def rangesMeet (x y : Nat × Nat) : Bool := decide (x.1 < y.1 + y.2) && decide (y.1 < x.1 + x.2) && x.2 != 0 && y.2 != 0

/-- Some two ranges of a list meet. -/
def anyMeet : List (Nat × Nat) → Bool
  | [] => false
  | x :: l => l.any (rangesMeet x) || anyMeet l

/-- Pages of a section: first page number and count (R83). -/
def Section.pages (x : Section) : Nat × Nat := (x.vaddr / 4096, (x.memsize + 4095) / 4096)

/-- The image read, or the status that rows 2 and 3 of R34 refuse it with: 1 FORMAT, 2 EMPTY (DEDUCED, log 78). A
nonzero reserved bit of the header and a NSECT outside 1 to 8 give FORMAT (DESIGN CHOICE, log 85). -/
def readImage (img : List Byte) : Except Nat Image :=
  let n := img.length
  let h := leNat (img.take 32)
  let nsect := bits h 63 48
  if n < 64 ∨ sha256 (img.take (n - 32)) ≠ img.drop (n - 32) then .error 1
  else if bits h 31 0 ≠ 0x31494448 ∨ bits h 39 32 ≠ 1 ∨ bits h 47 40 ≠ 1 ∨ bits h 255 192 ≠ n ∨ bits h 191 64 ≠ 0 then .error 1
  else if nsect < 1 ∨ 8 < nsect ∨ n < 64 + 32 * nsect then .error 1
  else match (List.range nsect).mapM (dirEntry img) with
    | none => .error 1
    | some dir =>
      let data := fun (t : Nat) => match dir.find? (fun e => e.type == t) with
        | some e => (e.data, e.count)
        | none => ([], 0)
      let sections : List Section := (dir.filter (fun e => [0x10, 0x11, 0x12].contains e.type)).map
        (fun e => { type := e.type, vaddr := e.vaddr, memsize := e.memsize, data := e.data })
      if !distinct (dir.map (·.type)) || anyMeet (sections.map (·.pages)) then .error 1
      else
        let descs := (records (data 1).1 32 (data 1).2).map descOf
        let chans := (records (data 2).1 16 (data 2).2).map chanRecOf
        let boxes := (records (data 3).1 8 (data 3).2).map leNat
        let rings := (records (data 4).1 8 (data 4).2).map ringRecOf
        if descs.isEmpty then .error 2
        else .ok
          { descs := descs.map (·.1), chans := chans.map (·.1), boxes, rings := rings.map (·.1), sections
            digest := img.drop (n - 32)
            sound := descs.all (·.2) && chans.all (·.2) && rings.all (·.2) && decide (boxes.length ≤ 32)
              && boxes.all (· < 2 ^ 32) }

/-! ## Row 4 of R34 -/

/-- A logical tile (R36): LDIE, LY and LX as one number. -/
def Desc.logical (d : Desc) : Nat := d.ldie * 128 + d.ly * 16 + d.lx

/-- The logical tiles of an image, in the order their first descriptors stand. -/
def Image.tiles (m : Image) : List Nat := m.descs.foldl (fun l d => if l.contains d.logical then l else l ++ [d.logical]) []

/-- The descriptors of a logical tile. -/
def Image.onTile (m : Image) (t : Nat) : List Desc := m.descs.filter (fun d => d.logical == t)

/-- The descriptor of a logical process. -/
def Image.desc? (m : Image) (lproc : Nat) : Option Desc := m.descs.find? (fun d => d.lproc == lproc)

/-- A sum over a list. -/
def total {α : Type} (l : List α) (f : α → Nat) : Nat := l.foldl (fun n x => n + f x) 0

/-- R30 holds on a logical tile. -/
def tileFits (l : List Desc) : Bool :=
  decide (l.length ≤ 8) && decide (total l (·.rows) ≤ 512) && decide (total l (·.accs) ≤ 4)
    && !anyMeet (l.map (fun d => (d.evbase, d.evcnt))) && !anyMeet (l.map (fun d => (d.spbase, d.spsize)))

/-- The channels of an image: the records of each CHAN number. -/
def Image.channels (m : Image) : List (List ChanRec) :=
  let nums := m.chans.foldl (fun (l : List Nat) c => if l.contains c.chan then l else l ++ [c.chan]) []
  nums.map (fun k => m.chans.filter (fun c => c.chan == k))

/-- The records of one channel agree (R81). -/
def channelSound (l : List ChanRec) : Bool :=
  match l with
  | [] => true
  | [c] => !c.merge
  | c :: _ => l.all (fun d => d.merge && d.clproc == c.clproc && d.cport == c.cport && d.slots == c.slots
      && d.wide == c.wide && d.resv == c.resv)

/-- A port of a logical process as one number. -/
def portKey (lproc port : Nat) : Nat := lproc * 16 + port

/-- The ports a channel's records name: each producer's and the consumer's once (R147). -/
def channelPorts (l : List ChanRec) : List Nat :=
  match l with
  | [] => []
  | c :: _ => l.map (fun d => portKey d.plproc d.pport) ++ [portKey c.clproc c.cport]

/-- Port buffer bytes of a channel at its consumer's tile (R153). -/
def bufferBytes (slots : Nat) (wide : Bool) : Nat := (slots * (if wide then 64 else 8) + 63) / 64 * 64

/-- R153 holds on a logical tile: buffer bytes and endpoint entries. -/
def Image.portsFit (m : Image) (t : Nat) : Bool :=
  let here := fun (lproc : Nat) => match m.desc? lproc with
    | some d => d.logical == t
    | none => false
  let faults := ((m.onTile t).filter (·.fpen)).length
  let buf := total m.channels (fun l => match l with
    | [] => 0
    | c :: _ => if here c.clproc then bufferBytes c.slots c.wide else 0) + 128 * faults
  let ends := total m.channels (fun l => match l with
    | [] => 0
    | c :: _ => (if here c.clproc then l.length else 0) + (l.filter (fun d => here d.plproc)).length) + faults
  decide (buf ≤ 65536) && decide (ends ≤ 256)

/-- The logical tiles of a ring, as its record names them. -/
def RingRec.tiles (r : RingRec) : List Nat := r.lx.map (fun x => r.ldie * 128 + r.ly * 16 + x)

/-- The rings name tiles of the image with a process that has accumulators, none twice (R275). -/
def Image.ringsSound (m : Image) : Bool :=
  let l := m.rings.flatMap (·.tiles)
  distinct l && l.all (fun t => (m.onTile t).any (fun d => decide (0 < d.accs)))

/-- The lowest logical die with none of some places (row and column) taken (R36). -/
def freeDie (taken places : List Nat) : Option Nat :=
  (List.range 4).find? (fun d => places.all (fun k => !taken.contains (d * 128 + k)))

/-- Logical dies given to groups of places in turn: the tile as the image names it, with the tile it becomes (R36). -/
def giveDies (taken : List Nat) : List (List Nat) → Option (List (Nat × Nat))
  | [] => some []
  | places :: rest => match freeDie taken places with
    | none => none
    | some d =>
      let new := places.map (fun k => d * 128 + k)
      match giveDies (taken ++ new) rest with
      | none => none
      | some l => some (places.map (fun k => (7 * 128 + k, d * 128 + k)) ++ l)

/-- The lowest LPROC on a logical tile. -/
def Image.lowest (m : Image) (t : Nat) : Nat := (m.onTile t).foldl (fun n d => min n d.lproc) 4096

/-- The logical tile each of the image's tiles becomes (R36); none where no die is free. -/
def Image.logicalTiles (m : Image) : Option (List (Nat × Nat)) :=
  let fixed := m.tiles.filter (· < 4 * 128)
  let rings := (m.rings.filter (fun r => r.ldie == 7)).map (fun r => r.tiles.map (· % 128))
  let inRing := rings.flatMap id
  let rest := (m.tiles.filter (fun t => decide (7 * 128 ≤ t) && !inRing.contains (t % 128))).mergeSort
    (fun x y => decide (m.lowest x ≤ m.lowest y))
  (giveDies fixed (rings ++ rest.map (fun t => [t % 128]))).map (fun l => fixed.map (fun t => (t, t)) ++ l)

/-- Row 4 of R34 but for the logical dies. -/
def Image.wellFormed (m : Image) : Bool :=
  m.sound && distinct (m.descs.map (·.lproc)) && m.tiles.all (fun t => tileFits (m.onTile t))
    && m.chans.all (fun c => (m.desc? c.plproc).isSome && (m.desc? c.clproc).isSome)
    && m.channels.all channelSound
    && distinct (m.channels.flatMap channelPorts ++ (m.descs.filter (·.fpen)).map (fun d => portKey d.lproc d.fport))
    && m.tiles.all m.portsFit && m.ringsSound

/-! ## The signature (R51, R52) -/

/-- Some aligned word of `z` bytes passes a test; `n` words looked at. -/
def anyWord (z : Nat) (f : Nat → Bool) (b : List Byte) : Nat → Bool
  | 0 => false
  | n + 1 => f (leNat (b.take z)) || anyWord z f (b.drop z) n

/-- The TEXT bytes of an image. -/
def Image.text (m : Image) : List Byte :=
  match m.sections.find? (fun x => x.type == 0x10) with
  | some x => x.data
  | none => []

/-- The static flags: MERGE, CUE and FPATOM (R52). -/
def Image.flags (m : Image) : Nat :=
  let cue := anyWord 4 (fun w => (bits w 31 26 == 0x3C && bits w 8 0 == 3)
    || (bits w 31 26 == 0x3E && !w.testBit 15 && bits w 11 0 == 0x041)) m.text (m.text.length / 4)
  let fp := anyWord 8 (fun w => (bits w 63 56 == 0xB0 || bits w 63 56 == 0xB4) && bits w 45 42 == 10) m.text (m.text.length / 8)
  (m.chans.any (·.merge)).toNat * 32 + cue.toNat * 16 + fp.toNat * 8

/-- The reproducibility signature before collectives are bound (R51). -/
def Image.signature (m : Image) : Word :=
  BitVec.ofNat 64 (Config.isaRev.toNat * 2 ^ 56 + Config.romId.toNat * 2 ^ 40
    + ((m.digest.getD 0 0).toNat * 2 ^ 32 + (m.digest.getD 1 0).toNat * 2 ^ 24 + (m.digest.getD 2 0).toNat * 2 ^ 16) + m.flags)

end Sys2Proof.Machine
end

