-- ==== Sys2Proof/Machine/Paging.lean ====
section
/-!
DEFINITION. What the Prompter does to device memory and page tables: physical pages, mapping and unmapping, the
emptying of TLBs and walk caches, and accesses of a tenant still under way (R83, R306-R315, R426, R453).
-/

namespace Sys2Proof.Machine

/-! ## Physical pages -/

/-- A number rounded up to a multiple. -/
def alignUp (x unit : Nat) : Nat := (x + unit - 1) / unit * unit

/-- The lowest free address for a page, aligned to its size, from `at0` up; pages in use by rising base. -/
def fitPage (size at0 : Nat) : AMap Nat → Nat
  | [] => at0
  | (b, n) :: l => if at0 + size ≤ b then at0 else fitPage size (max at0 (alignUp (b + n) size)) l

/-- Bytes of physical memory made zero, with poison clear (R83, R455). -/
def State.zeroRange (s : State) (pa n : Nat) : State :=
  let keep := fun (unit k : Nat) => decide (k < pa / unit) || decide ((pa + n) / unit ≤ k)
  { s.unlinkLines pa n with
    mem := memClear s.mem pa n
    memPoison := s.memPoison.filter (keep 8)
    memErrors := s.memErrors.filter (fun x => keep 32 x.1) }

/-- A page of physical memory allocated: its address; none where device memory cannot supply it. -/
def State.allocPage (s : State) (size : Nat) : Option (Nat × State) :=
  let pa := fitPage size 0 s.usedPages
  if memLimit < pa + size then none
  else some (pa, { s.zeroRange pa size with usedPages := mset s.usedPages pa size })

/-- Physical pages returned. -/
def State.freePages (s : State) (l : List Nat) : State := { s with usedPages := l.foldl mdel s.usedPages }

/-! ## Entries (R307) -/

/-- A page-table entry written. -/
def State.putEntry (s : State) (pa x : Nat) : State := s.memWrite pa (leBytes 8 x) (List.replicate 8 false)

/-- Low bits of a leaf. -/
def leafBits (size : Nat) (rd w x : Bool) : Nat := size * 256 + x.toNat * 16 + w.toNat * 8 + rd.toNat * 4 + 3

/-- A local leaf. -/
def localLeaf (pa size : Nat) (rd w x : Bool) : Nat := pa + leafBits size rd w x

/-- A remote leaf; ROFF in units of 4 KiB. -/
def remoteLeaf (pkg key roff size : Nat) (rd w : Bool) : Nat :=
  key * 2 ^ 52 + pkg * 2 ^ 42 + roff * 4096 + 32 + leafBits size rd w false

/-- The table of a level that an address leads to, made where it is missing: its address. -/
def State.tableFor (s : State) (tenant va target table level : Nat) : Nat → Option (Nat × State)
  | 0 => none
  | fuel + 1 =>
    if level = target then some (table, s)
    else
      let pa := table + 8 * levelIndex va level
      match s.entryAt pa with
      | none => none
      | some e => match readPte e level with
        | .pointer t => s.tableFor tenant va target t (level + 1) fuel
        | .leaf _ _ => none
        | .fault _ =>
          if e.testBit 0 then none
          else match s.allocPage 4096 with
            | none => none
            | some (t, s) =>
              ((s.putEntry pa (t + 1)).modTenant tenant (fun x => { x with tables := x.tables ++ [t] })).tableFor
                tenant va target t (level + 1) fuel

/-- `n` entries of a table from index `i` given one value. -/
def State.putEntries (s : State) (table i x : Nat) : Nat → State
  | 0 => s
  | n + 1 => (s.putEntry (table + 8 * i) x).putEntries table (i + 1) x n

/-- A page mapped: every leaf of its run holds the same entry (R309). -/
def State.mapPage (s : State) (tenant va size x : Nat) : Option State :=
  match mget s.tenants tenant with
  | none => none
  | some t => match s.tableFor tenant va (leafLevel size) t.root 1 4 with
    | none => none
    | some (table, s) => some (s.putEntries table (levelIndex va (leafLevel size)) x (runLeaves size))

/-- A valid leaf stands for some byte of `lo` to `hi - 1`, in the table of a level that spans from `base` up; an entry
that cannot be read counts. -/
def State.mappedIn (s : State) (lo hi table level base : Nat) : Nat → Bool
  | 0 => true
  | fuel + 1 =>
    let span := levelBytes level
    let first := (max lo base - base) / span
    let last := (min hi (base + 512 * span) - base + span - 1) / span
    (List.range (last - first)).any (fun k =>
      let i := first + k
      match s.entryAt (table + 8 * i) with
      | none => true
      | some e => match readPte e level with
        | .pointer t => s.mappedIn lo hi t (level + 1) (base + i * span) fuel
        | .leaf _ _ => true
        | .fault _ => e.testBit 0)

/-- Some part of a range of a tenant's device addresses is mapped. -/
def State.anyMapped (s : State) (tenant va n : Nat) : Bool :=
  match mget s.tenants tenant with
  | none => true
  | some t => n != 0 && s.mappedIn (va % 2 ^ 48) (va % 2 ^ 48 + n) t.root 1 0 4

/-- The page at an address: the table its leaves stand in, SIZE and leaf. -/
def State.pageFrom (s : State) (va table level : Nat) : Nat → Option (Nat × Nat × Leaf)
  | 0 => none
  | fuel + 1 => match s.entryAt (table + 8 * levelIndex va level) with
    | none => none
    | some e => match readPte e level with
      | .pointer t => s.pageFrom va t (level + 1) fuel
      | .leaf size l => some (table, size, l)
      | .fault _ => none

/-- The page whose base an address is: its table, SIZE and leaf. -/
def State.pageAt (s : State) (tenant va : Nat) : Option (Nat × Nat × Leaf) :=
  match mget s.tenants tenant with
  | none => none
  | some t => match s.pageFrom (va % 2 ^ 48) t.root 1 4 with
    | some (table, size, l) => if va % pageBytes size = 0 then some (table, size, l) else none
    | none => none

/-- The physical pages a tenant has mapped, from a table of a level down. -/
def State.pagesFrom (s : State) (table level : Nat) : Nat → List Nat
  | 0 => []
  | fuel + 1 => (List.range 512).flatMap (fun i => match s.entryAt (table + 8 * i) with
    | none => []
    | some e => match readPte e level with
      | .pointer t => s.pagesFrom t (level + 1) fuel
      | .leaf _ (.page _ _ _ _ (.phys pa)) => [pa]
      | _ => [])

/-! ## MAP.SYNC (R315) -/

/-- A pending walk that must read its entries again: at once, or once the entry under way is there (R315). -/
def Walk.restart (w : Walk) : Walk :=
  if w.result.isSome then { w with unit := none, result := none } else { w with again := w.unit.isSome }

/-- Every TLB and walk cache emptied of a tenant's entries; a pending walk reads its entries again. -/
def State.flushTenant (s : State) (tenant : Nat) : State :=
  { s with
    tiles := s.tiles.map (fun x => (x.1, if x.2.owner = some tenant then { x.2 with tlb := [], denied := [] } else x.2))
    dies := s.dies.map (fun d =>
      { walks := d.walks.map (fun w => if w.tenant = tenant then w.restart else w)
        cache := d.cache.filter (fun c => c.1 != tenant) }) }

/-- The tenant a source of this package belongs to. -/
def State.tenantOf (s : State) (x : Source) : Option Nat :=
  match x with
  | .proc pid | .engine pid _ | .relay pid _ => (s.proc? pid).map (·.tenant)
  | .fn n => (s.fn n).tenant
  | _ => none

/-- Every access of a tenant with a number below `n` has been performed (R315) (DEDUCED, log 83). -/
def State.olderDone (s : State) (tenant n : Nat) : Bool :=
  let old := fun (r : Req) => decide (r.id < n) && s.tenantOf r.src == some tenant
  !s.flight.any old && !s.queued.any old
    && !s.remotes.any (fun x => decide (x.1 < n) && x.2.msg.isNone && s.tenantOf x.2.src == some tenant)

/-! ## Accesses of the Prompter for a function (R447) -/

/-- A range of a tenant's device addresses translated for an access kind, in pieces; none where some page fails. -/
def State.prompterPieces (s : State) (tenant va n kind : Nat) : Option (List (Nat × Nat)) :=
  if !canonDev (BitVec.ofNat 64 va) || decide (2 ^ 48 < va % 2 ^ 48 + n) || decide (2 ^ 64 ≤ va) then none
  else (cutRange va n 4096 (n / 4096 + 2)).mapM (fun x => match s.walkTranslate tenant x.1 kind with
    | .ok (.phys pa) => some (pa, x.2)
    | _ => none)

/-- Bytes read in pieces; none where a word is poisoned. -/
def State.readPieces (s : State) : List (Nat × Nat) → State × Option (List Byte)
  | [] => (s, some [])
  | (pa, n) :: l =>
    let (s, b, psn) := s.physRead pa n
    let (s, rest) := s.readPieces l
    (s, if psn.any id then none else rest.map (b ++ ·))

/-- Clean bytes written in pieces. -/
def State.writePieces (s : State) (b : List Byte) : List (Nat × Nat) → State
  | [] => s
  | (pa, n) :: l => (s.memWrite pa (b.take n) (List.replicate n false)).writePieces (b.drop n) l

end Sys2Proof.Machine
end

