-- ==== Sys2Proof/Machine/Capture.lean ====
section
/-!
DEFINITION. The capture of a process and its return on a tile, and holds of networks (R30, R40-R44, R115, R153, R294,
R360, R401, R409-R413).
-/

namespace Sys2Proof.Machine

/-! ## Holds (R44, R403, R454, R458) -/

/-- A network that returns to Running: not while the module is held for its temperature (R458). -/
def State.unholdNet (s : State) (k : Nat) : State :=
  s.modNet k (fun n => if n.st = .held then
    (if s.thermalHeld then { n with thermal := true } else { n with st := .running, thermal := false }) else n)

/-- The network of a process runs. -/
def State.netRuns (s : State) (p : Proc) : Bool :=
  match mget s.nets p.net with
  | some n => n.st == .running
  | none => false

/-! ## Waiting for a process (R115, R294, R330) -/

/-- The reply to the parked word is there. -/
def Proc.replied (p : Proc) : Bool :=
  match p.pend with
  | some (.done _) => true
  | _ => false

/-- A capture or kill waits: for service code in the slot, for a memory reply and the word it completes, for DISPQ
answers, for a span-ring round. -/
def State.mustWait (s : State) (p : Proc) : Bool :=
  p.priv || match p.st with
  | .dormant | .retired | .preempted _ => false
  | .trapped => !p.queries.isEmpty
  | st => !p.queries.isEmpty
    || (st == .parked .memoryReply && (!p.replied || s.netRuns p))
    || (st == .ready && p.woken && p.replied && s.netRuns p)
    || p.convoys.any (fun c => match c.members with
      | [.mring _] => !c.stopped
      | _ => false)

/-- Requests of the process's vector work, its parked word or its engines are still under way. -/
def State.inFlight (s : State) (pid : Nat) (p : Proc) : Bool :=
  p.convoys.any (fun c => !c.acks.isEmpty || c.reqs.any (fun r => r.reply.isNone)) || !p.acks.isEmpty
  || (List.range 8).any (fun j => s.sourceBusy (.engine pid j))
  || (match p.pend with
    | some (.sent _) => true
    | _ => false)

/-- A capture of the process can take place now (DEDUCED, log 64). -/
def State.captureReady (s : State) (pid : Nat) : Bool :=
  match s.proc? pid with
  | none => true
  | some p => match p.st with
    | .dormant | .retired | .preempted _ => true
    | _ => !s.mustWait p && !s.inFlight pid p

/-- Processes that start no further word, scalar or vector, or may again. -/
def State.freeze (s : State) (l : List Nat) (b : Bool) : State :=
  l.foldl (fun s pid => s.modProc pid (fun p => { p with frozen := b })) s

/-! ## The context (R360, R409, R410) -/

/-- SaveBytes (R410). -/
def Proc.saveBytes (p : Proc) (region : Bool) : Nat :=
  8192 + 576 * p.desc.rows + 2576 * p.geom.lrows + 29184 * p.desc.accs + (if p.claim then 8832 else 0)
    + (if region then 4160 * p.desc.spsize else 0)

/-- Pages of a save area (DEDUCED, log 42). -/
def Proc.areaPages (p : Proc) (region : Bool) : Nat := (p.saveBytes region + 4095) / 4096

/-- A stream context as saved: strips filled and not released are dropped, to be filled again (R360). -/
def StreamCtx.saved (t : StreamCtx) : StreamCtx :=
  if t.modeCode = 1 then { t with strips := t.strips.filter (·.released) } else t

/-- Every stale entry of a slice's table completed, `n` at most (R257). -/
def Tile.settleSlice (t : Tile) (slice : Nat) : Nat → Tile
  | 0 => t
  | n + 1 => if (t.slice slice).stale.isEmpty then t else (t.parityUpdate slice).settleSlice slice n

/-- The stale entries of every slice completed. -/
def Tile.settle (t : Tile) : Tile := [0, 1, 2, 3].foldl (fun t k => t.settleSlice k 16) t

/-- The bytes and poisoned words of a region as the Prompter reads them (R413). -/
def State.readRegion (s : State) (p : Proc) : State × (Memory × NatSet) :=
  let a := 4096 * p.desc.spbase
  let (s, b, psn, _) := s.spadRead p.tile a (4096 * p.desc.spsize)
  (s, ((b.zipIdx.filter (fun x => x.1 != 0)).map (fun x => (a + x.2, x.1)),
    (psn.zipIdx.filter (fun x => x.1 && x.2 % 8 == 0)).map (fun x => (a + x.2) / 8)))

/-- A region written back, lines of 64 bytes from `a` up (R413). -/
def State.writeRegion (s : State) (tile : Nat) (m : Memory × NatSet) (a : Nat) : Nat → State
  | 0 => s
  | n + 1 =>
    (s.spadWriteNow tile a (memBytes m.1 a 64) ((List.range 64).map (fun i => m.2.contains ((a + i) / 8)))).writeRegion
      tile m (a + 64) n

/-- The park a captured process keeps for NET.STATUS, with the reason it counted as parked for. -/
def State.savedPark (s : State) (pid : Nat) (p : Proc) : Option Park :=
  match s.waitsFor pid p with
  | some (r, _) => p.park.map (fun k => { k with reason := r })
  | none => none

/-- A matrix member whose replies are in is carried to its end (R280, R289). -/
def State.endMember (s : State) (pid : Nat) : State :=
  match s.proc? pid with
  | none => s
  | some p => match p.convoys.find? (fun c => c.matrix && !c.finished && !c.reqs.isEmpty) with
    | none => s
    | some cv => s.matrixMember pid p cv

/-- Every convoy left at its restart point: the groups below it shown, requests dropped, and TELEM the first element of
the oldest one's group; a Trapped process keeps its TELEM (R200, R399, R411). -/
def Proc.leaveConvoys (p : Proc) : Proc :=
  let q := p.convoys.foldl (fun q c => (q.show c.id c.group).modConvoy c.id (fun c => c.drop (fun _ => true))) p
  match p.st == .trapped, p.convoys.find? (fun c => !c.finished) with
  | false, some c => { q with trap := { q.trap with telem := BitVec.ofNat 64 (if c.matrix then 0 else 64 * c.group) } }
  | _, _ => q

/-- The vector stream of a process stopped, and its stores performed (R396, R411 steps 1, 2). -/
def State.stopAll (s : State) (pid : Nat) : State :=
  ((s.endMember pid).modProc pid (fun p => p.stopVector.leaveConvoys)).flushAll pid

/-- The context of a captured process (R360, R409); `was` is the park it had. A word whose reply has come completes at
its return. -/
def Proc.context (p : Proc) (was : Option Park) : Proc :=
  let keepWord := p.replied && (p.woken || p.st == .parked .memoryReply)
  let keep := keepWord || p.st == .trapped
  { p with
    frozen := false, park := if keep then p.park else was, woken := keepWord, pend := if keep then p.pend else none
    record := if keep then p.record else [], tasks := p.tasks.map (fun t => { t with captured := false })
    streams := p.streams.map (·.saved), closing := p.closing.map (fun x => (x.1, x.2.saved)) }

/-- The process out of its tile, its context saved (R409, R411); `was` is the park it had. -/
def State.saveContext (s : State) (pid : Nat) (region : Bool) (was : Option Park) : State :=
  match s.proc? pid with
  | none => s
  | some p =>
    let region := region && p.desc.spsize != 0
    let s := s.modTile p.tile (·.settle)
    let (s, saved) := if region then
        (let (s, m) := s.readRegion p
         (s, some m))
      else (s, none)
    let mask := p.tileMask (2 ^ p.desc.evcnt - 1)
    let p' := { p.context was with
      st := .preempted (p.st == .trapped), saved, savedEvents := (s.tile p.tile).events &&& mask
      kept := !region && p.desc.spsize != 0, savePages := p.areaPages region }
    let s := (s.unlinkProc pid).setProc pid p'
    (s.modTile p.tile (fun t =>
      { t with
        events := t.events &&& ~~~mask, matrix := t.matrix.filter (fun x => x.1 != pid)
        loops := t.loops.filter (fun x => x.1 != pid), fifos := t.fifos.filter (fun x => x.1 / 4 != pid) })).freeTile p.tile

/-- A process captured (R411). -/
def State.capture (s : State) (pid : Nat) (region : Bool) : State :=
  let was := (s.proc? pid).bind (fun p => s.savedPark pid p)
  (s.stopAll pid).saveContext pid region was

/-! ## Whether a tile can take a process (R30, R32, R153, R412, R413) -/

/-- The processes that use a tile, but for some. -/
def State.onTile (s : State) (tile : Nat) (out : List Nat) : List (Nat × Proc) :=
  s.procs.filter (fun x => x.2.tile == tile && x.2.holdsTile && !out.contains x.1)

/-- Kept regions are on a tile without a slot. -/
def Proc.inSlot (p : Proc) : Bool :=
  match p.st with
  | .preempted _ => false
  | .retired => false
  | _ => true

/-- Port buffer and endpoint entries fit with these processes on one tile (R153, R159, R446). -/
def State.portsFitTile (s : State) (l : List Nat) : Bool :=
  let mine := fun (e : End) => match e with
    | .proc pid _ => l.contains pid
    | _ => false
  let isFault := fun (x : Chan) => x.prods.any (fun d => match d.src with
    | .fault _ => true
    | _ => false)
  let buf := total s.chans (fun x => if mine x.2.consumer then bufferBytes x.2.slots x.2.wide else 0)
  let ends := total s.chans (fun x =>
    (if mine x.2.consumer then (if isFault x.2 then 1 else max 1 x.2.prods.length) else 0)
      + (x.2.prods.filter (fun d => mine d.src)).length)
  decide (buf ≤ 65536) && decide (ends ≤ 256)

/-- Processes fit on a tile beside those that use it. -/
def State.fits (s : State) (tenant tile : Nat) (l : List Nat) : Bool :=
  let t := s.tile tile
  let old := s.onTile tile l
  let new := l.filterMap (fun pid => (s.proc? pid).map (fun p => (pid, p)))
  let inSlot := old.filter (fun x => x.2.inSlot) ++ new
  !t.withdrawn && (t.owner == none || t.owner == some tenant) && decide (inSlot.length ≤ 8)
    && decide (total inSlot (fun x => x.2.desc.rows) ≤ 512) && decide (total inSlot (fun x => x.2.desc.accs) ≤ 4)
    && decide ((inSlot.filter (fun x => x.2.claim)).length ≤ 1)
    && !anyMeet (inSlot.map (fun x => (x.2.desc.evbase, x.2.desc.evcnt)))
    && !anyMeet ((old ++ new).map (fun x => (x.2.desc.spbase, x.2.desc.spsize)))
    && s.portsFitTile (inSlot.map (·.1))

/-- A tile that nothing holds. -/
def State.tileFree (s : State) (tile : Nat) : Bool :=
  let t := s.tile tile
  !t.withdrawn && t.owner.isNone && (s.onTile tile []).isEmpty

/-- Every tile. -/
def allTiles : List Nat := List.range 384

/-- No port would carry more than 48 units with processes on other tiles (R388). -/
def State.portsFitWith (s : State) (l : List (Nat × Nat)) : Bool :=
  (l.foldl (fun (s : State) x => s.modProc x.1 (fun p => { p with tile := x.2 })) s).portsFit

/-- The tiles a process may be resumed on: a kept region's tile and no other (R413); else its old tile or a free one,
where the tiles of `taken` are given to others of this resumption, and the ports on the new paths take its channels' units
(R388) (DEDUCED, log 65). -/
def State.homes (s : State) (tenant pid : Nat) (p : Proc) (taken : List (Nat × Nat)) : List Nat :=
  let mates := (taken.filter (fun x => x.2 == p.tile)).map (·.1)
  let home := if s.fits tenant p.tile (pid :: mates) then [p.tile] else []
  if p.kept then home
  else home ++ allTiles.filter (fun t => t != p.tile && s.tileFree t && taken.all (fun x => x.2 != t)
    && s.portsFitWith ((pid, t) :: taken))

/-- Runs of consecutive tiles of a die row. -/
def tileRuns (n : Nat) : List (List Nat) :=
  (List.range 32).flatMap (fun row => (List.range (13 - n)).map (fun x => (List.range n).map (fun k => 12 * row + x + k)))

/-- The runs of tiles a ring may be resumed on (R294). -/
def State.ringRuns (s : State) (tenant : Nat) (l : List Nat) : List (List Nat) :=
  let ok := fun (run : List Nat) => (l.zip run).all (fun x => match s.proc? x.1 with
    | none => false
    | some p =>
      if p.tile = x.2 then s.fits tenant x.2 [x.1] else s.tileFree x.2 && !p.kept)
  (tileRuns l.length).filter (fun run => ok run && s.portsFitWith (l.zip run))

/-! ## Returning to a tile (R401, R412, R413) -/

/-- The lowest slot of a tile that no process holds. -/
def State.freeSlot (s : State) (tile : Nat) : Nat :=
  let used := ((s.onTile tile []).filter (fun x => x.2.inSlot)).map (fun x => x.2.slot)
  ((List.range 8).find? (fun k => !used.contains k)).getD 0

/-- A kept region moved off its tile as a save and a restore would move it (R256, R413). -/
def State.liftRegion (s : State) (pid : Nat) : State :=
  match s.proc? pid with
  | none => s
  | some p =>
    if !p.kept then s
    else
      let (s, m) := s.readRegion p
      (s.setProc pid { p with kept := false, saved := some m }).freeTile p.tile

/-- The matrix convoys of a process back in the matrix unit of a tile. -/
def Proc.matrixQueue (p : Proc) (pid : Nat) : List (Nat × Nat) := (p.convoys.filter (·.matrix)).map (fun c => (pid, c.id))

/-- A process none of whose context is used (R412): as at its creation, with what its ports, queues and channels hold. -/
def Proc.blank (p : Proc) : Proc :=
  { p with
    pc := 0, g := Vector.replicate 32 0, sigctl := false, sig := SigState.init, sigOld := SigState.init, vflags := Flags.none
    ffe := 0, xtab0 := 0, xtab1 := 0, srseed := 0, encoreEn := false, replays := 0, vbcnt := Vector.replicate 8 0
    geom := geometry p.desc.rows (4 * p.desc.vregs) p.desc.bufs, rows := [], rowPoison := [], masks := [], acc := []
    accPoison := [], latch := [], latchPoison := [], rounds := (0, 0), ringWait := none, grant := Grant.start, queue := []
    tasks := [], convoys := [], pending := [], streams := Vector.replicate 8 StreamCtx.init, closing := []
    cue := Vector.replicate 4 none, cueWait := [], pend := none, record := [], park := none, woken := false
    trap := TrapRegs.zero, saved := none, savedEvents := 0, ctxLost := false }

/-- A captured process placed on a tile, its context restored; one saved Trapped stays Trapped, and one whose context
reads back poisoned is Trapped with cause 0xA2 (R42, R412) (DEDUCED, log 42). -/
def State.restore (s : State) (pid tile : Nat) : State :=
  let s := match s.proc? pid with
    | some p => if p.tile = tile then s else s.liftRegion pid
    | none => s
  match s.proc? pid with
  | none => s
  | some p0 =>
    let p := if p0.ctxLost then p0.blank else p0
    let trapped := !p0.ctxLost && p.st == .preempted true
    let slot := s.freeSlot tile
    let e := s.hopOf s.readers (s.procs.map (fun x => (x.1, x.2.eff))) p
    let q := if trapped then p else p.unstop
    let q := { q with
      st := if trapped then .trapped else .ready, tile, slot, eff := e, saved := none
      cue := q.cue.map (·.map (fun c => { c with since := s.cue }))
      savedEvents := 0, kept := false
      savePages := 0, park := if p.woken || trapped then p.park else none }
    let s := (s.setProc pid q).modTile tile (fun t =>
      { t with events := t.events ||| p.savedEvents, matrix := t.matrix ++ p.matrixQueue pid, owner := some p.tenant })
    let s := match p.saved with
      | none => s
      | some m => s.writeRegion tile m (4096 * p.desc.spbase) (64 * p.desc.spsize)
    if p0.ctxLost then s.takeTrap pid { cause := 0xA2, origin := 5, pc := 0, addr := 0, elem := 0, info := 0 } else s

/-- A cause that only a kill answers (R400, R401). -/
def fatalCause (c : Nat) : Bool := c == 0x10 || c == 0x11 || c == 0x42 || c == 0xA2

/-- A process's cause is fatal: Trapped, or saved Trapped. -/
def Proc.fatal (p : Proc) : Bool := (p.st == .trapped || p.st == .preempted true) && fatalCause (p.trap.tcause.toNat % 256)

/-- A Trapped process returns to Ready at EPC (R401, R412). A word it was parked on whose request has been answered
completes at its next issue (R115). -/
def State.resumeTrap (s : State) (pid : Nat) : State :=
  s.modProc pid (fun p =>
    let q := p.resumeTrapped.unstop
    match p.park with
    | none => q
    | some k => if p.replied then { q with woken := true } else { q with st := .parked k.reason })

/-- A process trapped with its tile moves to another one (R256, R400). -/
def State.mustMove (s : State) (p : Proc) : Bool :=
  p.st == .trapped && p.trap.tcause.toNat % 256 == 0x43 && (s.tile p.tile).withdrawn

/-! ## Rings (R275, R294) -/

/-- The ring of a process, or the process alone. -/
def State.withRing (s : State) (pid : Nat) : List Nat :=
  match s.ringOf pid with
  | some l => l
  | none => [pid]

/-- Processes with the rest of their rings, each once. -/
def State.withRings (s : State) (l : List Nat) : List Nat :=
  l.foldl (fun acc pid => (s.withRing pid).foldl (fun acc q => if acc.contains q then acc else acc ++ [q]) acc) []

end Sys2Proof.Machine
end

