-- ==== Sys2Proof/Machine/Command.lean ====
section
/-!
DEFINITION. How a Prompter command is taken and checked before it is performed, commands in progress, and what a tenant
is charged (R31, R448-R453).
-/

namespace Sys2Proof.Machine

/-! ## Taking a command (R450, R451, R454) -/

/-- Commands that change a network's state, which wait while a SNAPSHOT is taken (R454). -/
def heldBySnapshot (op : Nat) : Bool := [0x03, 0x10, 0x11, 0x12, 0x13, 0x14, 0x15, 0x17].contains op

/-- Functions of the port of `fn` with a command in progress (DEDUCED, log 59). -/
def State.coresBusy (s : State) (fn : Nat) : Nat := (s.fns.filter (fun x => x.1 / 33 == fn / 33 && x.2.busy.isSome)).length

/-- The rank of a function's next command: a management command above all others, then its tenant's PRIOMAX (R390, R450);
another command of a function without a tenant is with the lowest (DESIGN CHOICE, log 92). -/
def State.cmdRank (s : State) (fn : Nat) : Nat :=
  let own := ((s.fn fn).tenant.bind (fun t => mget s.tenants t)).elim 0 (·.quota.priomax)
  match (s.fn fn).framed with
  | .command h _ => if headerOp h < 0x0A then 8 else own
  | _ => own

/-- The command of a function comes first among those its port could begin: the highest rank, then the one complete
longest (R390, R450) (DEDUCED, log 59). -/
def State.cmdFirst (s : State) (fn : Nat) : Bool :=
  (s.cmdOrder.filter (fun g => g != fn && g / 33 == fn / 33 && (s.fn g).idle
      && (match (s.fn g).framed with
        | .command h _ => !(s.snapshot.isSome && heldBySnapshot (headerOp h))
        | _ => false))).all (fun g =>
    decide (s.cmdRank g < s.cmdRank fn) || (s.cmdRank g == s.cmdRank fn && decide (s.cmdOrder.idxOf fn < s.cmdOrder.idxOf g)))

/-- The command a function performs next, where it may begin it: header and arguments (R450) (DEDUCED, log 59). -/
def State.command? (s : State) (fn op : Nat) : Option (Word × List Word) :=
  let f := s.fn fn
  if !s.ready || !f.idle || decide (4 ≤ s.coresBusy fn) || (s.snapshot.isSome && heldBySnapshot op) || !s.cmdFirst fn then none
  else match f.framed with
    | .command h a => if headerOp h = op then some (h, a) else none
    | _ => none

/-- A tenant command from an unbound function, a management command from a virtual function, MODULE.RESET from port B
(R451). -/
def State.denied (s : State) (fn op : Nat) : Bool :=
  if op = 0x0A then false
  else if op < 0x10 then fn % 33 != 0 || (op == 9 && decide (33 ≤ fn)) else (s.fn fn).tenant.isNone

/-- The reply of a command, NRES 0 unless it is OK (R448). -/
def State.answer (s : State) (fn : Nat) (hd : Word) (status : Nat) (res : List Nat) : State :=
  s.replyCmd fn hd (hd.toNat / 2 ^ 40) status (if status = 0 then res.map (BitVec.ofNat 64) else [])

/-- A command taken from its channel and checked as far as every command is: DENIED, then FORMAT where its tokens are
poisoned, NARG is not `narg`, or `ok` finds a reserved bit set. -/
def State.takeCommand (s : State) (fn op : Nat) (narg : Nat → Bool) (ok : Word → List Nat → Bool)
    (f : State → Word → List Nat → State) : State :=
  match s.command? fn op with
  | none => s
  | some (hd, args) =>
    let psn := ((s.fn fn).cmdin.take (args.length + 1)).any (fun t => t.poison.any id)
    let s := { s.modFn fn (·.takeTokens (args.length + 1)) with cmdOrder := s.cmdOrder.erase fn }
    let a := args.map (·.toNat)
    (if s.denied fn op then s.answer fn hd 8 []
     else if psn || !narg a.length || !ok hd a then s.answer fn hd 1 []
     else f s hd a).settleFn fn

/-- Argument `k`. -/
def arg (a : List Nat) (k : Nat) : Nat := a.getD k 0

/-- NET and NGEN are zero in a command without a network (R448). -/
def noNet (hd : Word) : Bool := hd.toNat / 2 ^ 32 % 65536 == 0

/-- A management command. -/
def State.mgmtCommand (s : State) (fn op n : Nat) (ok : List Nat → Bool) (f : State → Word → List Nat → State) : State :=
  s.takeCommand fn op (· == n) (fun hd a => noNet hd && ok a) f

/-- A tenant command without a network: `f` gets the tenant. -/
def State.tenantCommand (s : State) (fn op n : Nat) (ok : List Nat → Bool)
    (f : State → Nat → Word → List Nat → State) : State :=
  s.takeCommand fn op (· == n) (fun hd a => noNet hd && ok a) (fun s hd a => match (s.fn fn).tenant with
    | some t => f s t hd a
    | none => s)

/-- Key of a tenant's network number (DESIGN CHOICE, log 72). -/
def netKey (tenant number : Nat) : Nat := tenant * 256 + number

/-- The network a command names by NET and NGEN (R449). -/
def State.namedNet (s : State) (tenant : Nat) (hd : Word) : Option (Nat × Net) :=
  let k := netKey tenant (hd.toNat / 2 ^ 40 % 256)
  match mget s.nets k with
  | some n => if n.gen = hd.toNat / 2 ^ 32 % 256 then some (k, n) else none
  | none => none

/-- A command of a network: STALE (7) where NET and NGEN name none (R449). -/
def State.netCommandOf (s : State) (fn op : Nat) (narg : Nat → Bool) (ok : List Nat → Bool)
    (f : State → Nat → Net → Word → List Nat → State) : State :=
  s.takeCommand fn op narg (fun _ a => ok a) (fun s hd a => match (s.fn fn).tenant.bind (fun t => s.namedNet t hd) with
    | some (k, n) => f s k n hd a
    | none => s.answer fn hd 7 [])

/-- A command of a network with a fixed number of arguments. -/
def State.netCommand (s : State) (fn op n : Nat) (ok : List Nat → Bool)
    (f : State → Nat → Net → Word → List Nat → State) : State := s.netCommandOf fn op (· == n) ok f

/-! ## Commands in progress -/

/-- A command of a code that is in progress at a function. -/
def State.busyWith (s : State) (fn op : Nat) : Option Busy :=
  match (s.fn fn).busy with
  | some b => if headerOp b.header = op then some b else none
  | none => none

/-- A command begins that cannot reply at once. -/
def State.startBusy (s : State) (fn : Nat) (hd : Word) (a : List Nat) (held : List Nat) : State :=
  s.modFn fn (fun f => { f with
    busy := some { header := hd, args := a.map (BitVec.ofNat 64), seenAge := s.nextReq, held, mute := false } })

/-! ## Charges (R31) -/

/-- The networks of a tenant, with their keys. -/
def State.netsOf (s : State) (tenant : Nat) : List (Nat × Net) := s.nets.filter (fun x => x.2.tenant == tenant)

/-- Networks that still hold what they were given (R44). -/
def State.liveNets (s : State) (tenant : Nat) : List (Nat × Net) := (s.netsOf tenant).filter (fun x => x.2.st != .completed)

/-- The channel of a fault port costs no quota (R31, R159). -/
def Chan.isFault (x : Chan) : Bool := x.prods.any (fun d => match d.src with
  | .fault _ => true
  | _ => false)

/-- The channels of a tenant (DEDUCED, log 61). -/
def State.tenantChans (s : State) (tenant : Nat) : List Chan :=
  (s.chans.filter (fun x => (mget s.nets x.2.net).any (fun n => n.tenant == tenant))).map (·.2)

/-- What a tenant is charged: processes, tiles, endpoints, networks, SPILL pages and RESV units (R31)
(DEDUCED, log 61). -/
def State.charges (s : State) (tenant : Nat) : Quota :=
  { maxproc := total (s.liveNets tenant) (fun x => x.2.procs.length)
    maxtiles := total (s.liveNets tenant) (fun x => x.2.tiles.length)
    maxchan := total ((s.tenantChans tenant).filter (fun x => !x.isFault)) (fun x => x.prods.length + 1)
    spill := s.spillCharge tenant
    resv := total (s.tenantChans tenant) (·.resv)
      + total (s.procs.filter (fun x => x.2.tenant == tenant && x.2.st != .retired)) (fun x => x.2.resvNext)
    maxnets := (s.netsOf tenant).length, priomax := 0 }

/-- Charges within quotas. -/
def Quota.covers (q c : Quota) : Bool :=
  decide (c.maxproc ≤ q.maxproc) && decide (c.maxtiles ≤ q.maxtiles) && decide (c.maxchan ≤ q.maxchan)
    && decide (c.spill ≤ q.spill) && decide (c.resv ≤ q.resv) && decide (c.maxnets ≤ q.maxnets)

/-- Charges together. -/
def Quota.plus (a b : Quota) : Quota :=
  { maxproc := a.maxproc + b.maxproc, maxtiles := a.maxtiles + b.maxtiles, maxchan := a.maxchan + b.maxchan
    spill := a.spill + b.spill, resv := a.resv + b.resv, maxnets := a.maxnets + b.maxnets, priomax := a.priomax }

/-- The process of a network with an LPROC. -/
def State.lproc? (s : State) (n : Net) (lproc : Nat) : Option (Nat × Proc) :=
  (n.procs.filterMap (fun pid => (s.proc? pid).map (fun p => (pid, p)))).find? (fun x => x.2.desc.lproc == lproc)

/-- The processes a command names: an LPROC, or every one by 0xFFF; none where the network lacks it. -/
def State.named (s : State) (n : Net) (lproc : Nat) : Option (List Nat) :=
  if lproc = 0xFFF then some ((s.byLproc n).map (·.1)) else (s.lproc? n lproc).map (fun x => [x.1])

end Sys2Proof.Machine
end

