-- ==== Sys2Proof/Machine/Mapping.lean ====
section
/-!
DEFINITION. The commands over mappings, registrations, the memory window, collective groups and server reservations
(R301, R315, R426-R429, R438, R447, R452, R453).
-/

namespace Sys2Proof.Machine

/-! ## MAP.ALLOC, MAP.FREE, MAP.REMOTE, MAP.SYNC (R315, R453) -/

/-- An address a page of a SIZE may have: canonical, and aligned to the page (R453). -/
def pageOk (va size : Nat) : Bool := decide (size ≤ 11) && va % pageBytes size == 0 && canonDev (BitVec.ofNat 64 va)

/-- Some byte of a range of a tenant lies inside a live registration (R426, R453). -/
def State.registered (s : State) (tenant va n : Nat) : Bool :=
  s.regs.any (fun x => x.2.tenant == tenant && !x.2.revoked
    && rangesMeet (va % 2 ^ 48, n) (x.2.base % 2 ^ 48, x.2.pages * 4096))

/-- MAP.ALLOC. -/
def State.mapAlloc (s : State) (fn t : Nat) (hd : Word) (a : List Nat) : State :=
  let va := arg a 0
  let size := bits (arg a 1) 11 8
  let n := pageBytes size
  if !pageOk va size then s.answer fn hd 3 []
  else if s.registered t va n || s.anyMapped t va n then s.answer fn hd 6 []
  else match s.allocPage n with
    | none => s.answer fn hd 4 []
    | some (pa, s') => match s'.mapPage t va size (localLeaf pa size ((arg a 1).testBit 2) ((arg a 1).testBit 3) ((arg a 1).testBit 4)) with
      | none => s.answer fn hd 4 []
      | some s' => s'.answer fn hd 0 []

/-- MAP_ALLOC (R453). -/
def execMapAlloc (fn : Nat) (s : State) : Res :=
  .next (s.tenantCommand fn 0x1A 2
    (fun a => bits (arg a 1) 1 0 == 0 && bits (arg a 1) 7 5 == 0 && bits (arg a 1) 63 12 == 0)
    (fun s t hd a => s.mapAlloc fn t hd a))

/-- MAP.FREE: the page is unmapped at once, and freed once no access can reach it. -/
def State.mapFree (s : State) (fn t : Nat) (hd : Word) (a : List Nat) : State :=
  let va := arg a 0
  if !canonDev (BitVec.ofNat 64 va) then s.answer fn hd 6 []
  else match s.pageAt t va with
    | none => s.answer fn hd 6 []
    | some (table, size, l) =>
      if s.registered t va (pageBytes size) then s.answer fn hd 6 []
      else
        let page := match l with
          | .page _ _ _ _ (.phys pa) => [pa]
          | _ => []
        let s := s.putEntries table (levelIndex (va % 2 ^ 48) (leafLevel size)) 0 (runLeaves size)
        (s.flushTenant t).startBusy fn hd a page

/-- MAP.FREE and MAP.SYNC end once every access through a discarded entry has been performed (R315)
(DEDUCED, log 83). -/
def State.endSync (s : State) (fn : Nat) (b : Busy) : State :=
  match (s.fn fn).tenant with
  | none => (s.freePages b.held).finishBusy fn 0 []
  | some t => if s.olderDone t b.seenAge then (s.freePages b.held).finishBusy fn 0 [] else s

/-- MAP_FREE (R453). -/
def execMapFree (fn : Nat) (s : State) : Res :=
  .next (match s.busyWith fn 0x1B with
    | some b => s.endSync fn b
    | none => s.tenantCommand fn 0x1B 1 (fun _ => true) (fun s t hd a => s.mapFree fn t hd a))

/-- MAP.REMOTE. -/
def State.mapRemote (s : State) (fn t : Nat) (hd : Word) (a : List Nat) : State :=
  let va := arg a 0
  let x := arg a 1
  let size := bits x 11 8
  let n := pageBytes size
  if !pageOk va size || decide (2 ^ 30 ≤ arg a 2) || arg a 2 * 4096 % n != 0 then s.answer fn hd 3 []
  else if s.registered t va n || s.anyMapped t va n then s.answer fn hd 6 []
  else match s.mapPage t va size (remoteLeaf (bits x 63 54) (bits x 53 42) (arg a 2) size (x.testBit 2) (x.testBit 3)) with
    | none => s.answer fn hd 4 []
    | some s' => s'.answer fn hd 0 []

/-- MAP_REMOTE (R307, R311, R452). -/
def execMapRemote (fn : Nat) (s : State) : Res :=
  .next (s.tenantCommand fn 0x1C 3
    (fun a => bits (arg a 1) 1 0 == 0 && bits (arg a 1) 7 4 == 0 && bits (arg a 1) 41 12 == 0)
    (fun s t hd a => s.mapRemote fn t hd a))

/-- MAP_SYNC (R315). -/
def execMapSync (fn : Nat) (s : State) : Res :=
  .next (match s.busyWith fn 0x1D with
    | some b => s.endSync fn b
    | none => s.tenantCommand fn 0x1D 0 (fun _ => true) (fun s t hd a => (s.flushTenant t).startBusy fn hd a []))

/-! ## Registrations and imports (R426, R427, R429) -/

/-- Every page from `va` up to `hi` is a local leaf that grants the admitted kinds (R426); `fuel` pages at most. -/
def State.regPages (s : State) (t va hi : Nat) (rd wr am : Bool) : Nat → Bool
  | 0 => decide (hi ≤ va)
  | fuel + 1 =>
    if hi ≤ va then true
    else match s.walkAt t va with
      | .page size r w _ (.phys _) =>
        (!rd || r) && (!wr || w) && (!am || (r && w)) && s.regPages t (va / size * size + size) hi rd wr am fuel
      | _ => false

/-- REG.CREATE. -/
def State.regCreate (s : State) (fn t : Nat) (hd : Word) (a : List Nat) : State :=
  let base := arg a 0
  let pages := bits (arg a 1) 63 32
  let am := (arg a 1).testBit 2
  let wr := (arg a 1).testBit 1
  let rd := (arg a 1).testBit 0
  if base % 4096 ≠ 0 ∨ !canonDev (BitVec.ofNat 64 base) ∨ pages = 0 ∨ 2 ^ 48 < base % 2 ^ 48 + pages * 4096
      ∨ !s.regPages t base (base + 4096 * pages) rd wr am pages then s.answer fn hd 3 []
  else match (List.range 4096).find? (fun k => match mget s.regs k with
      | none => true
      | some r => r.revoked) with
    | none => s.answer fn hd 4 []
    | some k =>
      let gen := mgetD s.regGens k 0 % 4095 + 1
      let r : Reg :=
        { tenant := t, gen := BitVec.ofNat 12 gen, base, pages, atomic := am, write := wr, read := rd
          allowed := BitVec.ofNat 32 (arg a 2), revoking := false, revoked := false }
      { s.enterCtx (.registration k) with regs := mset s.regs k r, regGens := mset s.regGens k gen }.answer fn hd 0 [gen * 4096 + k]

/-- REG_CREATE (R426, R452). -/
def execRegCreate (fn : Nat) (s : State) : Res :=
  .next (s.tenantCommand fn 0x1E 3 (fun a => bits (arg a 1) 31 3 == 0 && bits (arg a 2) 63 32 == 0)
    (fun s t hd a => s.regCreate fn t hd a))

/-- REG.REVOKE, the first step (R429). -/
def State.regRevoke (s : State) (fn t : Nat) (hd : Word) (a : List Nat) : State :=
  match mget s.regs (arg a 0) with
  | none => s.answer fn hd 3 []
  | some r =>
    if r.tenant ≠ t then s.answer fn hd 3 []
    else if r.revoked || r.revoking then s.answer fn hd 6 []
    else ({ s with regs := mset s.regs (arg a 0) { r with revoking := true } }).startBusy fn hd a []

/-- REG_REVOKE (R429); REVOKE_COMPLETE ends it. -/
def execRegRevoke (fn : Nat) (s : State) : Res :=
  .next (s.tenantCommand fn 0x1F 1 (fun a => decide (arg a 0 < 4096)) (fun s t hd a => s.regRevoke fn t hd a))

/-- REG.IMPORT: the generation current now is recorded; another package's is not known here (R427). -/
def State.regImport (s : State) (fn t : Nat) (hd : Word) (a : List Nat) : State :=
  let pkg := bits (arg a 0) 21 12
  let key := BitVec.ofNat 12 (arg a 0)
  let put : State → BitVec 12 → State := fun s gen => { s.enterCtx (.imported t pkg key) with
    imports := s.imports.filter (fun (i : Import) => !(i.tenant == t && i.pkg == pkg && i.key == key))
      ++ [{ tenant := t, pkg, key, gen }] }
  if s.self = some pkg then
    (put s (match s.reg? key with
      | some r => r.gen
      | none => 0)).answer fn hd 0 []
  else if !s.reachable pkg then s.answer fn hd 11 []
  else (put { s with draws := s.draws + 1 } (Config.remoteGen (4096 * pkg + key.toNat) s.draws)).answer fn hd 0 []

/-- REG_IMPORT (R427, R452). -/
def execRegImport (fn : Nat) (s : State) : Res :=
  .next (s.tenantCommand fn 0x20 1 (fun a => bits (arg a 0) 63 22 == 0) (fun s t hd a => s.regImport fn t hd a))

/-! ## WINDOW.SET (R447) -/

/-- WINDOW_SET: a base within the device window, at a multiple of 64 GiB. -/
def execWindowSet (fn : Nat) (s : State) : Res :=
  .next (s.tenantCommand fn 0x21 1 (fun _ => true) (fun s _ hd a =>
    if arg a 0 % 2 ^ 36 ≠ 0 ∨ !canonDev (BitVec.ofNat 64 (arg a 0)) then s.answer fn hd 3 []
    else (s.modFn fn (fun f => { f with window := some (arg a 0) })).answer fn hd 0 []))

/-! ## COLL.BIND (R438, R453) -/

/-- The rank table a command names; none where it cannot be read. -/
def State.rankTable (s : State) (t va d : Nat) : Option (List Nat) :=
  match s.prompterPieces t va (2 * d) kRead with
  | none => none
  | some l => ((s.readPieces l).2).map (fun b => (List.range d).map (fun r => leAt b (2 * r) 2))

/-- Another live network of the package holds a group tag. -/
def State.tagTaken (s : State) (k : Nat) (tag : BitVec 32) : Bool :=
  s.nets.any (fun x => x.1 != k && x.2.st != .completed && x.2.coll.any (fun c => c.digest.tag == tag))

/-- COLL.BIND. -/
def State.collBind (s : State) (fn k : Nat) (n : Net) (hd : Word) (a : List Nat) : State :=
  let x := arg a 0
  let d := bits x 9 0
  let rank := bits x 19 10
  let tag := BitVec.ofNat 32 (x / 2 ^ 32)
  if n.st ≠ .created ∨ s.tagTaken k tag then s.answer fn hd 6 []
  else match s.lproc? n (bits x 31 20), s.rankTable n.tenant (arg a 1) d with
    | some (pid, _), some tab =>
      if d = 0 ∨ d ≤ rank then s.answer fn hd 3 []
      else if tab.any (fun e => decide (1024 ≤ e)) || !distinct tab
          || tab.zipIdx.any (fun e => s.self == some e.1 && e.2 != rank) then s.answer fn hd 1 []
      else if tab.any (fun e => s.self != some e && !s.reachable e) then s.answer fn hd 11 []
      else (s.modNet k (fun n => { n with coll := some { digest := { devcnt := d, ranks := tab, tag }, rank, proc := pid } })).answer
        fn hd 0 []
    | _, _ => s.answer fn hd 3 []

/-- COLL_BIND (R438, R453). -/
def execCollBind (fn : Nat) (s : State) : Res :=
  .next (s.netCommand fn 0x22 2 (fun _ => true) (fun s k n hd a => s.collBind fn k n hd a))

/-! ## RESV.SERVER (R301, R453) -/

/-- RESV.SERVER: the units come into force at the next cue-frame boundary. -/
def State.resvServer (s : State) (fn : Nat) (n : Net) (hd : Word) (a : List Nat) : State :=
  let units := bits (arg a 0) 17 12
  match s.lproc? n (bits (arg a 0) 11 0) with
  | none => s.answer fn hd 3 []
  | some (pid, p) =>
    if 48 < units then s.answer fn hd 3 []
    else if n.st = .completed ∨ p.st = .retired then s.answer fn hd 6 []
    else
      let quota := match mget s.tenants n.tenant with
        | some t => t.quota.resv
        | none => 0
      let others := total (s.procs.filter (fun x => x.1 != pid && x.2.st != .retired)) (fun x => x.2.resvNext)
      if quota < (s.charges n.tenant).resv - p.resvNext + units then s.answer fn hd 4 []
      else if 48 < others + units then s.answer fn hd 5 []
      else (s.setProc pid { p with resvNext := units }).answer fn hd 0 []

/-- RESV_SERVER (R301, R453). -/
def execResvServer (fn : Nat) (s : State) : Res :=
  .next (s.netCommand fn 0x19 1 (fun a => bits (arg a 0) 63 18 == 0) (fun s _ n hd a => s.resvServer fn n hd a))

end Sys2Proof.Machine
end

