-- ==== Sys2Proof/Machine/Create.lean ====
section
/-!
DEFINITION. NET.CREATE, NET.START and CHAN.HOST: the checks, placement, binding and loading of a network, and the start
of its processes (R34-R38, R40, R83, R147-R159, R274, R275, R328, R387, R388, R432, R446, R449, R453).
-/

namespace Sys2Proof.Machine

/-! ## Placement (R35, R36, R275) -/

/-- Every way to give distinct physical dies to logical ones. -/
def injections : List Nat → List Nat → List (List (Nat × Nat))
  | [], _ => [[]]
  | d :: ds, free => free.flatMap (fun x => (injections ds (free.filter (· != x))).map ((d, x) :: ·))

/-- Disjoint runs of free tiles for rings of given lengths, the earliest in the order of `runs` that leave room for the
rest (DESIGN CHOICE, log 26). -/
def ringPlaces (runs : Nat → List (List Nat)) : List Nat → List Nat → Option (List (List Nat))
  | [], _ => some []
  | n :: ns, free => (runs n).findSome? (fun run =>
      if run.all free.contains then (ringPlaces runs ns (free.filter (fun t => !run.contains t))).map (run :: ·) else none)

/-- The runs of `n` tiles of a physical die, begun at the one of number `k`. -/
def dieRuns (die k n : Nat) : List (List Nat) :=
  let l := (tileRuns n).filter (fun r => r.headD 0 / 96 == die)
  l.drop (k % l.length) ++ l.take (k % l.length)

/-- What NET.CREATE is to place on a logical die: its rings' tiles, each in ring order, and its other tiles. -/
structure DieLoad where
  rings : List (List Nat)
  tiles : List Nat
  deriving DecidableEq, Repr

/-- The free tiles of a physical die. -/
def State.freeOn (s : State) (die : Nat) : List Nat :=
  ((List.range 96).map (96 * die + ·)).filter (fun t => s.tileFree t)

/-- A physical die can take a load. -/
def DieLoad.fits (l : DieLoad) (free : List Nat) (die : Nat) : Bool :=
  match ringPlaces (dieRuns die 0) (l.rings.map (·.length)) free with
  | none => false
  | some runs => decide ((runs.flatMap id).length + l.tiles.length ≤ free.length)

/-- Tiles given to logical tiles, each any free one (R35). -/
def State.giveTiles (s : State) (free : List Nat) : List Nat → List (Nat × Nat) × State
  | [] => ([], s)
  | t :: ts =>
    let (k, s) := s.pick free.length
    let x := free.getD k 0
    let (l, s) := s.giveTiles (free.filter (· != x)) ts
    ((t, x) :: l, s)

/-- The load of a logical die on a physical one. -/
def State.placeDie (s : State) (l : DieLoad) (die : Nat) : List (Nat × Nat) × State :=
  let free := s.freeOn die
  let (k, s) := if l.rings.isEmpty then (0, s) else s.pick 96
  let runs := (ringPlaces (dieRuns die k) (l.rings.map (·.length)) free).getD []
  let used := runs.flatMap id
  let (rest, s) := s.giveTiles (free.filter (fun t => !used.contains t)) l.tiles
  ((l.rings.zip runs).flatMap (fun x => x.1.zip x.2) ++ rest, s)

/-- Logical dies placed on the physical dies chosen for them. -/
def State.placeDies (s : State) (load : Nat → DieLoad) : List (Nat × Nat) → List (Nat × Nat) × State
  | [] => ([], s)
  | (ld, pd) :: l =>
    let (x, s) := s.placeDie (load ld) pd
    let (y, s) := s.placeDies load l
    (x ++ y, s)

/-- Physical tiles for logical tiles (R35): none where no placement exists; else the Prompter's own choice (DESIGN
CHOICE, log 26). -/
def State.place (s : State) (tiles : List Nat) (rings : List (List Nat)) : Option (List (Nat × Nat) × State) :=
  let inRing := rings.flatMap id
  let dies := (List.range 4).filter (fun d => tiles.any (fun t => t / 128 == d))
  let load := fun (d : Nat) => ({
    rings := rings.filter (fun r => r.headD 0 / 128 == d)
    tiles := tiles.filter (fun t => t / 128 == d && !inRing.contains t) } : DieLoad)
  let maps := (injections dies [0, 1, 2, 3]).filter (fun m => m.all (fun x => (load x.1).fits (s.freeOn x.2) x.2))
  let (k, s) := s.pick maps.length
  (maps[k]?).map (fun m => s.placeDies load m)

/-- Every way to give rings disjoint runs of free tiles. -/
def allRingPlaces (runs : Nat → List (List Nat)) : List Nat → List Nat → List (List (List Nat))
  | [], _ => [[]]
  | n :: ns, free => (runs n).flatMap (fun run =>
      if run.all free.contains then (allRingPlaces runs ns (free.filter (fun t => !run.contains t))).map (run :: ·) else [])

/-- Every way to place a load on a physical die. -/
def State.diePlaces (s : State) (l : DieLoad) (die : Nat) : List (List (Nat × Nat)) :=
  let free := s.freeOn die
  (allRingPlaces (dieRuns die 0) (l.rings.map (·.length)) free).flatMap (fun runs =>
    let used := runs.flatMap id
    (injections l.tiles (free.filter (fun t => !used.contains t))).map (fun rest =>
      (l.rings.zip runs).flatMap (fun x => x.1.zip x.2) ++ rest))

/-- Every placement of logical tiles on free tiles (R35). -/
def State.allPlaces (s : State) (tiles : List Nat) (rings : List (List Nat)) : List (List (Nat × Nat)) :=
  let inRing := rings.flatMap id
  let dies := (List.range 4).filter (fun d => tiles.any (fun t => t / 128 == d))
  (injections dies [0, 1, 2, 3]).flatMap (fun m => m.foldl (fun (l : List (List (Nat × Nat))) x =>
    let load : DieLoad := { rings := rings.filter (fun r => r.headD 0 / 128 == x.1)
                            tiles := tiles.filter (fun t => t / 128 == x.1 && !inRing.contains t) }
    l.flatMap (fun y => (s.diePlaces load x.2).map (y ++ ·))) [[]])

/-! ## Handles (R148) -/

/-- A handle allotted: the lowest free INDEX, and its next GEN. -/
def State.newHandle (s : State) : Nat × Nat × State :=
  let used := mkeys s.chans ++ mkeys s.queueHandles
  let k := ((List.range (used.length + 1)).find? (fun i => !used.contains i)).getD 0
  let gen := mgetD s.handleGens k 0 % 4095 + 1
  (k, gen, { s with handleGens := mset s.handleGens k gen })

/-! ## Processes as placed (R28, R40, R146, R274) -/

/-- A process as NET.CREATE leaves it: Dormant, with the values NET.START finds (R40) (DESIGN CHOICE, log 84). -/
def mkProc (tenant net : Nat) (d : Desc) (ldie tile slot : Nat) (claim : Bool) (xq : Vector XQueue 4) : Proc :=
  { tenant, net, desc := d, ldie, tile, slot, st := .dormant, park := none, frozen := false, woken := false, pend := none
    record := [], pc := d.entry, g := (Vector.replicate 32 0).setIfInBounds 3 d.arg, priv := false, trap := TrapRegs.zero
    eff := d.prio, sigctl := d.sigchk, sig := SigState.init, sigOld := SigState.init, vflags := Flags.none, ffe := 0
    xtab0 := 0, xtab1 := 0, srseed := 0, encoreEn := d.encore, replays := 0, vbcnt := Vector.replicate 8 0
    geom := geometry d.rows (4 * d.vregs) d.bufs, rows := [], rowPoison := [], masks := [], acc := [], accPoison := []
    latch := [], latchPoison := [], claim, rounds := (0, 0), ringWait := none, grant := Grant.start, queue := []
    tasks := [], convoys := [], nextId := 0, pending := [], streams := Vector.replicate 8 StreamCtx.init, closing := []
    cue := Vector.replicate 4 none, cueWait := [], ports := [], launches := [], queries := [], xq, triggers := []
    coll := 0, collIssued := 0, colls := [], collFault := none, heldDigests := [], heldMarkers := [], heldChunks := []
    resvUnits := 0, resvNext := 0, saved := none, ctxLost := false, savedEvents := 0, kept := false, savePages := 0, moved := none, movedEnds := [], storeSeq := 0
    acks := [] }

/-- Four queue handles of a process (R432), allotted and entered. -/
def State.newQueues (s : State) (pid : Nat) : Vector XQueue 4 × State :=
  [0, 1, 2, 3].foldl (fun (x : Vector XQueue 4 × State) q =>
    let (k, gen, s) := x.2.newHandle
    let s := s.enterCtx (.queue k)
    (vput x.1 q (XQueue.init (BitVec.ofNat 32 (k * 4096 + gen))),
      { s with queueHandles := mset s.queueHandles k (pid, q) })) (Vector.replicate 4 (XQueue.init 0), s)

/-- What a network is created with. -/
structure Plan where
  key : Nat
  tenant : Nat
  image : Image
  /-- Logical tile of each tile the image names, and physical tile of each logical tile. -/
  logical : List (Nat × Nat)
  physical : List (Nat × Nat)
  deriving DecidableEq, Repr

/-- The second of the pair with a first (DEDUCED, log 82). -/
def assoc (l : List (Nat × Nat)) (x : Nat) : Nat := ((l.find? (fun y => y.1 == x)).map (·.2)).getD 0

/-- The process with the claim of a tile the image names: lowest LPROC with accumulators (R274). -/
def Image.holder (m : Image) (t : Nat) : Option Nat :=
  ((m.onTile t).filter (fun d => decide (0 < d.accs))).foldl (fun b d => match b with
    | none => some d.lproc
    | some x => some (min x d.lproc)) none

/-- Processes placed one after another, each in any free slot of its tile (R35); the state and their numbers. -/
def State.addProcs (s : State) (x : Plan) : List Desc → State × List Nat
  | [] => (s, [])
  | d :: ds =>
    let pid := mnext s.procs
    let lt := assoc x.logical d.logical
    let tile := assoc x.physical lt
    let used := (s.onTile tile []).map (fun y => y.2.slot)
    let free := (List.range 8).filter (fun k => !used.contains k)
    let (k, s) := s.pick free.length
    let (xq, s) := s.newQueues pid
    let p := mkProc x.tenant x.key d (lt / 128) tile (free.getD k 0) (x.image.holder d.logical == some d.lproc) xq
    let s := (s.setProc pid p).modTile tile (fun t => { t with owner := some x.tenant })
    let (s, l) := s.addProcs x ds
    (s, pid :: l)

/-! ## Channels (R147, R155, R158, R159, R446) -/

/-- A producer as bound. -/
def newProducer (src : End) (share : Nat) : Producer :=
  { src, share, credits := share, flight := [], returning := 0, growing := 0, sent := 0, received := 0 }

/-- A channel as bound (R155). -/
def newChan (gen net number slots resv : Nat) (wide merge : Bool) (consumer : End) (srcs : List End) : Chan :=
  { gen := BitVec.ofNat 12 gen, net, number, wide, merge, slots, doublings := 0, spillPages := 0, resv, consumer
    prods := srcs.map (fun e => newProducer e (slots / srcs.length)), buffer := [], spill := [], written := 0
    consumed := 0, circuits := [] }

/-- A port of a process bound. -/
def State.bindPort (s : State) (e : End) (c : Nat) (produces : Bool) : State :=
  match e with
  | .proc pid q => s.modProc pid (fun p => { p with ports := mset p.ports q (c, produces) })
  | _ => s

/-- A channel added: its INDEX and the state. -/
def State.addChan (s : State) (net number slots resv : Nat) (wide merge : Bool) (consumer : End) (srcs : List End) :
    Nat × State :=
  let (k, gen, s) := s.newHandle
  let s := { s with chans := mset s.chans k (newChan gen net number slots resv wide merge consumer srcs) }
  let s := srcs.foldl (fun s e => s.bindPort e k true) (s.bindPort consumer k false)
  (k, s.modNet net (fun n => { n with chans := n.chans ++ [k] }))

/-- The channels of an image bound. -/
def State.addChans (s : State) (key : Nat) (pidOf : Nat → Nat) (l : List (List ChanRec)) : State :=
  l.foldl (fun s recs => match recs with
    | [] => s
    | c :: _ => (s.addChan key c.chan c.slots c.resv c.wide c.merge (.proc (pidOf c.clproc) c.cport)
        (recs.map (fun r => .proc (pidOf r.plproc) r.pport))).2) s

/-- The fault ports of a network's processes bound (R159). -/
def State.addFaultPorts (s : State) (key : Nat) (pidOf : Nat → Nat) (l : List Desc) : State :=
  l.foldl (fun s d => if d.fpen then
      (s.addChan key (2 ^ 20 + d.lproc) 16 0 false false (.proc (pidOf d.lproc) d.fport) [.fault (pidOf d.lproc)]).2
    else s) s

/-! ## Sections (R83) -/

/-- Pages of a section mapped at `va` and filled, `n` of them; a section that runs past the last device address goes on
at the lowest (DESIGN CHOICE, log 85). -/
def State.loadPages (s : State) (t va : Nat) (w x : Bool) (b : List Byte) : Nat → Option State
  | 0 => some s
  | n + 1 => match s.allocPage 4096 with
    | none => none
    | some (pa, s) => match s.mapPage t va 0 (localLeaf pa 0 true w x) with
      | none => none
      | some s =>
        let page := b.take 4096
        (s.memWrite pa page (List.replicate page.length false)).loadPages t (va + 4096) w x (b.drop 4096) n

/-- The sections of an image loaded; none where device memory cannot supply their pages. -/
def State.loadSections (s : State) (t : Nat) : List Section → Option State
  | [] => some s
  | x :: l => match s.loadPages t x.vaddr (x.type != 0x10) (x.type == 0x10) x.data x.pages.2 with
    | none => none
    | some s => s.loadSections t l

/-! ## NET.CREATE (R34) -/

/-- Row 5 for a channel's records: SLOTS or RESV out of range (R81, R154). -/
def channelRange (l : List ChanRec) : Bool :=
  match l with
  | [] => true
  | c :: _ => decide (4 ≤ c.slots) && decide (c.slots ≤ 4096) && decide (c.resv ≤ 48)
    && decide ((if c.wide then 8 else 4) * l.length ≤ c.slots)

/-- What creating an image would charge (R31). -/
def Image.charges (m : Image) (tiles : Nat) : Quota :=
  { maxproc := m.descs.length, maxtiles := tiles, maxchan := total m.channels (fun l => l.length + 1), spill := 0
    resv := total m.channels (fun l => match l with
      | [] => 0
      | c :: _ => c.resv)
    maxnets := 1, priomax := 0 }

/-- Box offices that are free (R328). -/
def State.freeOffices (s : State) : List Nat := (List.range 32).filter (fun k => (vget s.offices k Office.init).net.isNone)

/-- The descriptors of an image by LPROC. -/
def Image.byLproc (m : Image) : List Desc := m.descs.mergeSort (fun x y => decide (x.lproc ≤ y.lproc))

/-- The network created (R35, R83, R158, R328): its processes, channels, box offices and rings. -/
def State.buildNet (s : State) (x : Plan) (gen : Nat) : State :=
  let m := x.image
  let offices : List (Nat × Nat) := s.freeOffices.zip m.boxes
  let net : Net :=
    { tenant := x.tenant, number := x.key % 256, gen, st := .created, thermal := false, procs := [], chans := [], offices
      rings := [], signature := m.signature, coll := none, discarded := 0, left := 0, killed := false, deadline := none
      tiles := x.physical.map (·.2) }
  let s := { s with
    nets := mset s.nets x.key net
    offices := offices.foldl (fun (o : Vector Office 32) (y : Nat × Nat) => vput o y.1 { Office.init with net := some x.key, count := y.2 }) s.offices }
  let ds : List Desc := m.byLproc
  let (s, pids) := s.addProcs x ds
  let pidOf := fun (lproc : Nat) => pids.getD (ds.findIdx (fun (d : Desc) => d.lproc == lproc)) 0
  let rings : List Ring := m.rings.map (fun (r : RingRec) => ({ members := r.tiles.filterMap (fun t => (m.holder t).map pidOf) } : Ring))
  let s := s.modNet x.key (fun n => { n with procs := pids, rings })
  ((s.addChans x.key pidOf m.channels).addFaultPorts x.key pidOf ds).modTenant x.tenant
    (fun t => { t with gens := mset t.gens (x.key % 256) gen })

/-- One entry of the placement table (R452). -/
def State.placementEntry (s : State) (pid : Nat) : List Byte :=
  match s.proc? pid with
  | none => []
  | some p => leBytes 2 (p.tile + p.slot * 512)

/-- NET.CREATE replies as MAP.SYNC does: once every access through a discarded entry has been performed (R83, R315). -/
def State.endCreate (s : State) (fn : Nat) : State :=
  match (s.fn fn).busy, (s.fn fn).tenant with
  | some b, some t => if s.olderDone t b.seenAge then s.finishBusy fn 0 b.args else s
  | some b, none => s.finishBusy fn 0 b.args
  | none, _ => s

/-- The placement of a network whose channels' units every port takes: the Prompter's own where it is one, else any other
that is; none where no placement keeps every port within 48 units (R34, R388) (DESIGN CHOICE, log 26). -/
def State.choosePlace (s : State) (tiles : List Nat) (rings : List (List Nat)) (good : State → List (Nat × Nat) → Bool) :
    Option (List (Nat × Nat)) × State :=
  match s.place tiles rings with
  | none => (none, s)
  | some (own, placed) =>
    if good placed own then (some own, placed)
    else
      let l := (s.allPlaces tiles rings).filter (good placed)
      let (k, placed) := placed.pick l.length
      (l[k]?, placed)

/-- Rows 6 and 7, and the effect: quotas, device memory, tiles, box offices and reserved ports (R34)
(DEDUCED, log 63). -/
def State.createNet (s0 s : State) (fn t : Nat) (hd : Word) (q : Quota) (m : Image) (logical table : List (Nat × Nat)) :
    State :=
  let tiles := m.tiles.map (assoc logical)
  let rings := m.rings.map (fun r => r.tiles.map (assoc logical))
  match (List.range 255).find? (fun k => (mget s.nets (netKey t k)).isNone), s.loadSections t m.sections with
  | some number, some loaded =>
    if 3072 < m.descs.length ∨ !q.covers ((s.charges t).plus (m.charges tiles.length)) then s0.answer fn hd 4 []
    else
      let key := netKey t number
      let gen := (match mget s.tenants t with
        | some x => mgetD x.gens number 0
        | none => 0) % 255 + 1
      let built := fun (s : State) (physical : List (Nat × Nat)) => s.buildNet { key, tenant := t, image := m, logical, physical } gen
      match loaded.choosePlace tiles rings (fun s l => (m.charges 0).resv == 0 || (built s l).portsFit) with
      | (none, placed) => { s0 with picks := placed.picks, draws := placed.draws }.answer fn hd 5 []
      | (some physical, placed) =>
        if s.freeOffices.length < m.boxes.length then { s0 with picks := placed.picks, draws := placed.draws }.answer fn hd 5 []
        else
          let s := (built placed physical).flushTenant t
          let pids := match mget s.nets key with
            | some n => n.procs
            | none => []
          let s := s.writePieces (pids.flatMap s.placementEntry) table
          (s.startBusy fn (hd ||| BitVec.ofNat 64 (number * 2 ^ 40))
            [gen * 256 + number, m.signature.toNat, if table.isEmpty then 0 else pids.length] []).endCreate fn
  | _, _ => s0.answer fn hd 4 []

/-- NET.CREATE: rows 1 to 5 (R34) (DEDUCED, log 63). -/
def State.netCreate (s : State) (fn t : Nat) (hd : Word) (a : List Nat) : State :=
  let len := arg a 1
  let pieces := if 2 ^ 32 ≤ len then none else if len = 0 then some [] else s.prompterPieces t (arg a 0) len kRead
  match pieces, mget s.tenants t with
  | some l, some tn =>
    let (s, raw) := s.readPieces l
    match raw.map readImage with
    | none => s.answer fn hd 3 []
    | some (.error st) => s.answer fn hd st []
    | some (.ok m) =>
      if !m.wellFormed then s.answer fn hd 1 []
      else match m.logicalTiles with
        | none => s.answer fn hd 1 []
        | some logical =>
          let table := if arg a 2 = 0 then some [] else s.prompterPieces t (arg a 2) (2 * m.descs.length) kWrite
          match table with
          | none => s.answer fn hd 3 []
          | some table =>
            if m.descs.any (fun d => decide (tn.quota.priomax < d.prio)) || !m.channels.all channelRange
                || m.sections.any (fun x => s.anyMapped t x.vaddr (x.pages.2 * 4096)) then s.answer fn hd 3 []
            else s.createNet s fn t hd tn.quota m logical table
  | _, _ => s.answer fn hd 3 []

/-- NET_CREATE (R34). -/
def execNetCreate (fn : Nat) (s : State) : Res :=
  .next (if (s.busyWith fn 0x10).isSome then s.endCreate fn
    else s.tenantCommand fn 0x10 3 (fun _ => true) (fun s t hd a => s.netCreate fn t hd a))

/-! ## NET.START (R38, R40) -/

/-- The index and count pairs of NET.START. -/
def startPairs : List Nat → List (Nat × Nat)
  | i :: c :: l => (i, c) :: startPairs l
  | _ => []

/-- NARG and the index tokens of NET.START are well formed (R38). -/
def startOk (a : List Nat) : Bool :=
  a.length == 1 + 2 * arg a 0 && (startPairs (a.drop 1)).all (fun x => decide (x.1 < 32))

/-- A Dormant process started: Ready, the counts of its transfer queues and COLL zero (R38, R431). -/
def Proc.started (p : Proc) : Proc :=
  { p with st := .ready, xq := p.xq.map (fun x => { x with posted := 0, doneCount := 0, arrived := 0 }), coll := 0 }

/-- A network started: counts set, the collective group bound, every Dormant process Ready. -/
def State.startNet (s : State) (k : Nat) (n : Net) (pairs : List (Nat × Nat)) : State :=
  let counts : List (Nat × Nat) := n.offices.zipIdx.map (fun x => (x.1.1, match pairs.find? (fun y => y.1 == x.2) with
    | some y => y.2
    | none => x.1.2))
  let sign := match n.coll with
    | some c => n.signature ||| BitVec.ofNat 64 (c.digest.devcnt * 64)
    | none => n.signature
  let s := { s with
    offices := counts.foldl (fun (o : Vector Office 32) (x : Nat × Nat) => vmod o x.1 (fun y => { y with count := x.2, next := 0 })) s.offices }
  (n.procs.foldl (fun (s : State) pid => s.modProc pid (fun p => if p.st = .dormant then p.started else p)) s).modNet k
    (fun n => { n with st := if s.thermalHeld then .held else .running, thermal := s.thermalHeld, signature := sign })

/-- NET.START (DEDUCED, log 60). -/
def State.netStart (s : State) (fn k : Nat) (n : Net) (hd : Word) (a : List Nat) : State :=
  let pairs := startPairs (a.drop 1)
  if n.st ≠ .created then s.answer fn hd 6 []
  else if 32 < arg a 0 ∨ pairs.any (fun x => decide (n.offices.length ≤ x.1) || decide (2 ^ 32 ≤ x.2))
      ∨ !distinct (pairs.map (·.1)) then s.answer fn hd 3 []
  else (s.startNet k n pairs).answer fn hd 0 []

/-- NET_START (R38, R40, R453). -/
def execNetStart (fn : Nat) (s : State) : Res :=
  .next (s.netCommandOf fn 0x11 (fun _ => true) startOk (fun s k n hd a => s.netStart fn k n hd a))

/-! ## CHAN.HOST (R446, R453) -/

/-- CHAN.HOST (DEDUCED, log 60). -/
def State.chanHost (s : State) (fn k : Nat) (n : Net) (hd : Word) (a : List Nat) : State :=
  let x := arg a 0
  let slot := bits x 35 32
  let port := bits x 19 16
  let host := x.testBit 15
  let wide := x.testBit 14
  let slots := bits x 12 0
  if n.st ≠ .created then s.answer fn hd 6 []
  else match s.lproc? n (bits x 31 20) with
    | none => s.answer fn hd 3 []
    | some (pid, p) =>
      if slots < 4 ∨ 4096 < slots then s.answer fn hd 3 []
      else if (mget p.ports port).isSome || (mget (s.fn fn).slots slot).isSome then s.answer fn hd 6 []
      else
        let e : End := .proc pid port
        let h : End := .host fn slot
        let (c, s') := s.addChan k (2 ^ 20 + 4096 + slot) slots 0 wide false (if host then e else h) [if host then h else e]
        let quota := match mget s.tenants n.tenant with
          | some t => t.quota.maxchan
          | none => 0
        if slots < (if wide then 8 else 4) ∨ !s'.portsFitTile (((s'.onTile p.tile []).filter (fun y => y.2.inSlot)).map (·.1)) then
          s.answer fn hd 3 []
        else if quota < (s.charges n.tenant).maxchan + 2 then s.answer fn hd 4 []
        else (s'.modFn fn (fun f => { f with slots := mset f.slots slot { chan := c, hostProduces := host } })).answer fn hd 0 []

/-- CHAN_HOST (R446, R453). -/
def execChanHost (fn : Nat) (s : State) : Res :=
  .next (s.netCommand fn 0x18 1 (fun a => bits (arg a 0) 63 36 == 0 && !(arg a 0).testBit 13)
    (fun s k n hd a => s.chanHost fn k n hd a))

end Sys2Proof.Machine
end

