-- ==== Sys2Proof/Machine/Networks.lean ====
section
/-!
DEFINITION. NET.KILL, NET.HOLD, NET.PREEMPT and its deadline, NET.RESUME, NET.STATUS and CHAN.REBIND (R40-R44, R115,
R162, R256, R294, R388, R401, R409-R413, R425, R449, R453).
-/

namespace Sys2Proof.Machine

/-- A command in progress, or one that has not had to wait, is answered. -/
def State.conclude (s : State) (fn : Nat) (hd : Word) (status : Nat) (res : List Nat) : State :=
  match (s.fn fn).busy with
  | some _ => s.finishBusy fn status (if status = 0 then res.map (BitVec.ofNat 64) else [])
  | none => s.answer fn hd status res

/-- The network of a command in progress. -/
def State.busyNet (s : State) (fn : Nat) (b : Busy) : Option (Nat × Net) :=
  (s.fn fn).tenant.bind (fun t => s.namedNet t b.header)

/-! ## NET.KILL and NET.HOLD -/

/-- Every process of a network retires; it reaches Completed and sends its report, and is removed (R44, R453). -/
def State.killNet (s : State) (k : Nat) : State :=
  match mget s.nets k with
  | none => s
  | some n =>
    let s := if n.st = .completed then s
      else n.procs.foldl (fun (s : State) pid => if s.isRetired pid then s else s.retireProc pid)
        (s.modNet k (fun n => { n with killed := true }))
    { s with nets := mdel s.nets k }

/-- Some process of a network makes a kill wait (R115) (DEDUCED, log 66). -/
def State.killWaits (s : State) (n : Net) : Bool :=
  n.procs.any (fun pid => match s.proc? pid with
    | some p => s.mustWait p
    | none => false)

/-- NET.KILL, begun or gone on with (DEDUCED, log 66). -/
def State.netKill (s : State) (fn k : Nat) (n : Net) (hd : Word) : State :=
  if s.killWaits n then
    let s := s.freeze n.procs true
    if (s.fn fn).busy.isSome then s else s.startBusy fn hd [] n.procs
  else (s.killNet k).conclude fn hd 0 []

/-- NET_KILL (R115, R453). -/
def execNetKill (fn : Nat) (s : State) : Res :=
  .next (match s.busyWith fn 0x12 with
    | some b => match s.busyNet fn b with
      | some (k, n) => s.netKill fn k n b.header
      | none => s.finishBusy fn 0 []
    | none => s.netCommand fn 0x12 0 (fun _ => true) (fun s k n hd _ => s.netKill fn k n hd))

/-- NET_HOLD (R44, R453). -/
def execNetHold (fn : Nat) (s : State) : Res :=
  .next (s.netCommand fn 0x13 0 (fun _ => true) (fun s k n hd _ =>
    if n.st ≠ .running then s.answer fn hd 6 [] else (s.holdNet k).answer fn hd 0 []))

/-! ## NET.PREEMPT (R411, R453) -/

/-- A process that a capture takes: Ready, Parked or Trapped. -/
def State.capturable (s : State) (pid : Nat) : Bool :=
  match s.proc? pid with
  | some p => p.resident
  | none => false

/-- A pre-emption whose pages do not fit is refused: the network is held, and cause 0xC1 reported (R410). -/
def State.refuseCapture (s : State) (k : Nat) (l : List Nat) : State :=
  let s := (s.freeze l false).holdNet k
  match l.head?.bind (fun pid => s.proc? pid) with
  | some p => s.noticeOf p (noticeWord 0xC1 0 0 0)
  | none => s

/-- The capture of frozen processes, once none of them makes it wait (R410, R411). -/
def State.captureAll (s : State) (fn k : Nat) (n : Net) (hd : Word) (l : List Nat) (region : Bool) : State :=
  let l := l.filter s.capturable
  if !l.all s.captureReady then s
  else
    let pages := total l (fun pid => match s.proc? pid with
      | some p => p.areaPages (region && p.desc.spsize != 0)
      | none => 0)
    let quota := match mget s.tenants n.tenant with
      | some t => t.quota.spill
      | none => 0
    if quota < s.spillCharge n.tenant + pages then (s.refuseCapture k l).conclude fn hd 4 []
    else (l.foldl (fun (s : State) pid => s.capture pid region) s).conclude fn hd 0 [l.length]

/-- A capture begins: its processes, with their rings, start nothing more (R294, R411). -/
def State.beginCapture (s : State) (fn k : Nat) (n : Net) (hd : Word) (a : List Nat) (l : List Nat) : State :=
  let l := (s.withRings l).filter s.capturable
  let s := s.freeze l true
  let s := match (s.fn fn).busy with
    | some _ => s.modFn fn (fun f => { f with busy := f.busy.map (fun (b : Busy) => { b with held := l }) })
    | none => if l.all s.captureReady then s else s.startBusy fn hd a l
  s.captureAll fn k n hd l ((arg a 0).testBit 12)

/-- NET.PREEMPT (DEDUCED, log 64). -/
def State.netPreempt (s : State) (fn k : Nat) (n : Net) (hd : Word) (a : List Nat) : State :=
  if n.st ≠ .running ∧ n.st ≠ .held then s.answer fn hd 6 []
  else match s.named n (bits (arg a 0) 11 0) with
    | none => s.answer fn hd 3 []
    | some l =>
      if s.cue < arg a 1 then
        (s.modNet k (fun n => { n with deadline := some (arg a 1, bits (arg a 0) 11 0, (arg a 0).testBit 12) })).startBusy fn hd a []
      else s.beginCapture fn k n hd a l

/-- NET_PREEMPT (R411, R453), begun or gone on with. -/
def execNetPreempt (fn : Nat) (s : State) : Res :=
  .next (match s.busyWith fn 0x14 with
    | some b => match s.busyNet fn b with
      | some (k, n) =>
        if n.st = .completed then s.finishBusy fn 0 [0]
        else if n.deadline.isSome then s
        else s.captureAll fn k n b.header b.held ((b.args.getD 0 0).getLsbD 12)
      | none => s.finishBusy fn 0 [0]
    | none => s.netCommand fn 0x14 2 (fun a => bits (arg a 0) 63 13 == 0) (fun s k n hd a => s.netPreempt fn k n hd a))

/-- CUE_DEADLINE_CAPTURE (R411): at its deadline an armed capture begins. -/
def State.deadlineCapture (s : State) (k : Nat) : State :=
  match mget s.nets k with
  | none => s
  | some n => match n.deadline, mget s.tenants n.tenant with
    | some (time, lproc, _), some t =>
      if s.cue < time || s.snapshot.isSome then s
      else match s.busyWith t.fn 0x14 with
        | none => s.modNet k (fun n => { n with deadline := none })
        | some b =>
          (s.modNet k (fun n => { n with deadline := none })).beginCapture t.fn k n b.header (b.args.map (·.toNat))
            ((s.named n lproc).getD [])
    | _, _ => s

/-- CUE_DEADLINE_CAPTURE. -/
def execCueDeadlineCapture (net : Nat) (s : State) : Res := .next (s.deadlineCapture net)

/-! ## NET.RESUME (R401, R412, R413, R453) -/

/-- A process that NET.RESUME returns: Pre-empted and not moved to another package, or Trapped. -/
def Proc.away (p : Proc) : Bool :=
  match p.st with
  | .preempted _ => p.moved.isNone
  | .trapped => true
  | _ => false

/-- Pre-empted. -/
def Proc.out (p : Proc) : Bool :=
  match p.st with
  | .preempted _ => true
  | _ => false

/-- The ring of a Pre-empted process whose members are all out, which is resumed whole (R294). -/
def State.ringOut (s : State) (pid : Nat) : Option (List Nat) :=
  (s.ringOf pid).bind (fun l => if l.all (fun q => (s.proc? q).any (·.out)) then some l else none)

/-- Tiles for the processes that need one, each any that fits; none where one does not (R412, R413)
(DEDUCED, log 65). -/
def State.planResume (s : State) (tenant : Nat) (taken : List (Nat × Nat)) : List Nat → Option (State × List (Nat × Nat))
  | [] => some (s, taken)
  | pid :: l =>
    if taken.any (fun x => x.1 == pid) then s.planResume tenant taken l
    else match s.proc? pid with
      | none => s.planResume tenant taken l
      | some p =>
        let moves := s.mustMove p
        if !p.out && !moves then s.planResume tenant taken l
        else match s.ringOut pid with
          | some ring =>
            let runs := (s.ringRuns tenant ring).filter (fun run => taken.all (fun x => !run.contains x.2))
            let (k, s) := s.pick runs.length
            match runs[k]? with
            | none => none
            | some run => s.planResume tenant (taken ++ ring.zip run) l
          | none =>
            if moves && (s.ringOf pid).isSome then none
            else
              let homes := s.homes tenant pid p taken
              let (k, s) := s.pick homes.length
              match homes[k]? with
              | none => none
              | some t => s.planResume tenant (taken ++ [(pid, t)]) l

/-- One process resumed, on the tile planned for it. -/
def State.resumeOne (s : State) (plan : List (Nat × Nat)) (pid : Nat) : State :=
  match s.proc? pid, plan.find? (fun x => x.1 == pid) with
  | some p, some (_, t) =>
    if p.out then s.restore pid t
    else ((s.capture pid true).restore pid t).resumeTrap pid
  | some p, none => if p.st = .trapped then s.resumeTrap pid else s
  | none, _ => s

/-- NET.RESUME, begun or gone on with. -/
def State.netResume (s : State) (fn k : Nat) (n : Net) (hd : Word) (a : List Nat) : State :=
  match s.named n (arg a 0) with
  | none => s.conclude fn hd 3 []
  | some l =>
    let all := if arg a 0 = 0xFFF then l else l.flatMap (fun pid => (s.ringOut pid).getD [pid])
    let tg := all.filter (fun pid => (s.proc? pid).any (·.away))
    let moving := tg.filter (fun pid => (s.proc? pid).any s.mustMove)
    if n.st = .created ∨ n.st = .completed ∨ (tg.isEmpty ∧ n.st ≠ .held) then s.conclude fn hd 6 []
    else if tg.any (fun pid => (s.proc? pid).any (·.fatal)) then s.conclude fn hd 10 []
    else if !moving.all s.captureReady then (if (s.fn fn).busy.isSome then s else s.startBusy fn hd a [])
    else match s.planResume n.tenant [] (tg.filter (fun pid => (s.ringOut pid).isSome) ++ tg) with
      | none => s.conclude fn hd 5 []
      | some (s, plan) =>
        (tg.foldl (fun (s : State) pid => s.resumeOne plan pid) (s.unholdNet k)).conclude fn hd 0 [tg.length]

/-- NET_RESUME (R401, R412, R453). -/
def execNetResume (fn : Nat) (s : State) : Res :=
  .next (match s.busyWith fn 0x15 with
    | some b => match s.busyNet fn b with
      | some (k, n) => s.netResume fn k n b.header (b.args.map (·.toNat))
      | none => s.finishBusy fn 6 []
    | none => s.netCommand fn 0x15 1 (fun a => decide (arg a 0 < 4096)) (fun s k n hd a => s.netResume fn k n hd a))

/-! ## NET.STATUS (R452, R453) -/

/-- Code of a process state, in R39 order. -/
def PState.code : PState → Nat
  | .dormant => 0
  | .ready => 1
  | .parked _ => 2
  | .trapped => 3
  | .preempted _ => 4
  | .retired => 5

/-- Code of a park reason, in R39 order from 1. -/
def ParkReason.code : ParkReason → Nat
  | .channelRead => 1
  | .channelWrite => 2
  | .memoryReply => 3
  | .eventWait => 4
  | .cueWait => 5
  | .vectorDrain => 6
  | .transferWait => 7
  | .spanLatch => 8

/-- Code of a network state. -/
def NetState.code : NetState → Nat
  | .created => 0
  | .running => 1
  | .held => 2
  | .completed => 3

/-- The park reason NET.STATUS gives. -/
def State.statusReason (s : State) (pid : Nat) (p : Proc) : Nat :=
  match p.st with
  | .preempted false => if p.woken then 0 else (p.park.map (fun k => k.reason.code)).getD 0
  | _ => ((s.waitsFor pid p).map (fun x => x.1.code)).getD 0

/-- The first result of NET.STATUS. -/
def State.statusWord (s : State) (pid : Nat) (p : Proc) : Nat :=
  let there := p.inSlot
  let trapped := p.st == .trapped || p.st == .preempted true
  p.st.code * 2 ^ 60 + s.statusReason pid p * 2 ^ 56 + (if there then p.tile else 0x1FF) * 2 ^ 47
    + (if there then p.slot else 0) * 2 ^ 44 + (if trapped then p.trap.tcause.toNat % 256 else 0) * 2 ^ 36

/-- NET_STATUS (R453). -/
def execNetStatus (fn : Nat) (s : State) : Res :=
  .next (s.netCommand fn 0x16 1 (fun a => decide (arg a 0 < 4096)) (fun s _ n hd a =>
    match s.lproc? n (arg a 0) with
    | none => s.answer fn hd 3 []
    | some (pid, p) =>
      let h := fun k => (p.queueAt k).handle.toNat
      s.answer fn hd 0 [s.statusWord pid p, n.st.code, h 1 * 2 ^ 32 + h 0, h 3 * 2 ^ 32 + h 2]))

/-! ## CHAN.REBIND (R162, R413, R425) -/

/-- The ports of a process with its channels, but for its fault port's. -/
def State.endsOf (s : State) (p : Proc) : List (Nat × Nat × Bool) :=
  (p.ports.filter (fun x => (s.chan? x.2.1).any (fun c => !c.isFault))).map (fun x => (x.1, x.2.1, x.2.2))

/-- A circuit at its start (R425). -/
def Circuit.start (pkg : Nat) : Circuit :=
  { pkg, sendSeq := 0, recvSeq := 0, creditSend := 0, creditRecv := 0, heldTokens := [], heldCredits := [], inherited := 0
    arriving := none, retired := false }

/-- The channel with a circuit toward a package; as it stands where there is one. -/
def Chan.toward (x : Chan) (pkg : Nat) : Chan :=
  if (x.circuitTo pkg).isSome then x else { x with circuits := x.circuits ++ [Circuit.start pkg] }

/-- Tokens held for a consumer that has moved leave as packets of the circuit, in their order (R162, R425). -/
def State.forwardTokens (s : State) (c pkg : Nat) (l : List (Nat × Token)) : State :=
  l.foldl (fun (s : State) x => s.sendToken c pkg x.1 x.2) s

/-- What another package is told of an end that moves to it (R162): its credits and counters unchanged. -/
def Chan.movedEnd (x : Chan) (c port which : Nat) : MovedEnd :=
  let d := (x.prods[which - 1]?).getD { src := .remote 0, share := 0, credits := 0, flight := [], returning := 0, growing := 0
                                        sent := 0, received := 0 }
  { handle := x.handle c, number := x.number, wide := x.wide, merge := x.merge, resv := x.resv, slots := x.slots
    doublings := x.doublings, shares := x.prods.map (·.share), port, which
    credits := if which = 0 then 0 else d.credits + d.growing, sent := if which = 0 then 0 else d.sent
    received := if which = 0 then 0 else d.received, consumed := x.consumed }

/-- One end of a Pre-empted process moved to another package: what is told of it, and the tokens held for it behind
(R162). -/
def State.moveEnd (s : State) (pid lproc pkg q c : Nat) (produces : Bool) : State :=
  match s.chan? c with
  | none => s
  | some x =>
    let which := if produces then ((x.prodOf (.proc pid q)).getD 0) + 1 else 0
    let s := s.modProc pid (fun p => { p with ports := mdel p.ports q, movedEnds := p.movedEnds ++ [(c, which)] })
    let s := { s.enterCtx (.circuit c) with vout := s.vout ++ [Packet.moved pkg lproc (x.movedEnd c q which)] }
    if produces then
      s.modChan c (fun x => { x.toward pkg with prods := x.prods.modify (which - 1) (fun d => { d with src := .remote pkg, growing := 0 }) })
    else
      (s.modChan c (fun x => { x.toward pkg with consumer := .remote pkg, buffer := [], spill := [] })).forwardTokens c pkg
        (x.buffer ++ x.spill)

/-- A process that leaves for another package: its context and its region go, and this package keeps of it that it
has not retired (R162, R413). -/
def State.depart (s : State) (pid pkg : Nat) : State :=
  match s.proc? pid with
  | none => s
  | some p =>
    let s := if p.kept then s.liftRegion pid else s
    (s.modProc pid (fun p => { p with moved := some pkg, saved := none, kept := false, savePages := 0 })).freeTile p.tile

/-- A rebinding to another package: every end of the process leaves on a circuit, and the process with them (DEDUCED,
log 67). -/
def State.rebindAway (s : State) (fn pid pkg : Nat) (p : Proc) (hd : Word) : State :=
  let ends := s.endsOf p
  if !s.reachable pkg then s.answer fn hd 11 []
  else
    let s' := (ends.foldl (fun (s : State) x => s.moveEnd pid p.desc.lproc pkg x.1 x.2.1 x.2.2) (s.launchAll pid)).depart pid pkg
    if !s'.portsFit then s.answer fn hd 5 [] else s'.answer fn hd 0 []

/-- The channel of an end that comes here, as far as this package knows it: every end at the package it comes from
(R162). -/
def MovedEnd.chan (e : MovedEnd) (net pkg : Nat) : Chan :=
  { gen := BitVec.ofNat 12 e.handle.toNat, net, number := e.number, wide := e.wide, merge := e.merge, slots := e.slots
    doublings := e.doublings, spillPages := 0, resv := e.resv, consumer := .remote pkg
    prods := e.shares.map (fun n => { src := .remote pkg, share := n, credits := 0, flight := [], returning := 0, growing := 0
                                      sent := 0, received := 0 })
    buffer := [], spill := [], written := e.consumed, consumed := e.consumed, circuits := [Circuit.start pkg] }

/-- The end that has come bound to a process here, with the credits and counters it had (R162). -/
def Chan.bindIn (x : Chan) (pid pkg : Nat) (e : MovedEnd) : Chan :=
  if e.which = 0 then
    { x.modCircuit pkg (fun ci => { ci with retired := false }) with
      consumer := .proc pid e.port, written := e.consumed, consumed := e.consumed }
  else { x with prods := x.prods.modify (e.which - 1) (fun d =>
    { d with src := .proc pid e.port, credits := e.credits, sent := e.sent, received := e.received }) }

/-- An end of a channel comes from another package with its process, which is Pre-empted here, and is bound to the same
port (R162, R425); an end that comes back is bound where no token of the channel is on its way (DEDUCED, log 67). -/
def State.rebindIn (s : State) (pid pkg : Nat) (e : MovedEnd) : State :=
  let c := e.handle.toNat / 4096
  match s.proc? pid with
  | none => s
  | some p =>
    let known := s.chan? c
    let x := (known.getD (e.chan p.net pkg)).toward pkg
    let there : End := if e.which = 0 then x.consumer else ((x.prods[e.which - 1]?).map (·.src)).getD (.fault 0)
    if !p.out || p.moved.isSome || (p.port e.port).isSome || there != .remote pkg || x.gen.toNat != e.handle.toNat % 4096
      || (known.isSome && x.prods.any (fun d => !d.flight.isEmpty)) then s
    else
      ({ s.enterCtx (.circuit c) with
         chans := mset s.chans c (x.bindIn pid pkg e)
         handleGens := mset s.handleGens c (e.handle.toNat % 4096) }.modNet x.net (fun n =>
           { n with chans := if n.chans.contains c then n.chans else n.chans ++ [c] })).modProc pid
        (fun p => { p with ports := mset p.ports e.port (c, e.which != 0) })

/-- A process moved to another tile while it is out: a kept region goes along (R413). -/
def State.rehome (s : State) (pid t tenant : Nat) (p : Proc) : State :=
  if p.kept && t != p.tile then
    let s' := (s.liftRegion pid).modTile t (fun x => { x with owner := some tenant })
    let s' := match (s'.proc? pid).bind (·.saved) with
      | some m => s'.writeRegion t m (4096 * p.desc.spbase) (64 * p.desc.spsize)
      | none => s'
    s'.modProc pid (fun p => { p with tile := t, saved := none, kept := true })
  else s.modProc pid (fun p => { p with tile := t })

/-- A rebinding within the package: to a tile that takes the process, over ports that take its channels' units (R162,
R388). -/
def State.rebindHere (s : State) (fn pid tile : Nat) (n : Net) (p : Proc) (hd : Word) : State :=
  let homes := ((if s.fits n.tenant p.tile [pid] then [p.tile] else []) ++ allTiles.filter (fun t => t != p.tile && s.tileFree t)).filter
    (fun t => s.portsFitWith [(pid, t)])
  let (k, s') := if tile = 0x1FF then s.pick homes.length else (homes.findIdx (· == tile), s)
  match homes[k]? with
  | none => s'.answer fn hd 5 []
  | some t => (s'.rehome pid t n.tenant p).answer fn hd 0 []

/-- CHAN.REBIND (DEDUCED, log 67). -/
def State.chanRebind (s : State) (fn : Nat) (n : Net) (hd : Word) (a : List Nat) : State :=
  let pkg := bits (arg a 1) 63 54
  let tile := bits (arg a 1) 53 45
  match s.lproc? n (arg a 0) with
  | none => s.answer fn hd 3 []
  | some (pid, p) =>
    if 384 ≤ tile ∧ tile ≠ 0x1FF then s.answer fn hd 3 []
    else if !p.out || p.moved.isSome then s.answer fn hd 6 []
    else if pkg = s.selfPkg then s.rebindHere fn pid tile n p hd
    else s.rebindAway fn pid pkg p hd

/-- CHAN_REBIND (R162). -/
def execChanRebind (fn : Nat) (s : State) : Res :=
  .next (s.netCommand fn 0x17 2 (fun a => decide (arg a 0 < 4096) && bits (arg a 1) 44 0 == 0)
    (fun s _ n hd a => s.chanRebind fn n hd a))

end Sys2Proof.Machine
end

