-- ==== Sys2Proof/Machine/Module.lean ====
section
/-!
DEFINITION. The commands over tenants and the module, attestation, boot, resets and temperature (R4, R31, R251-R257,
R305, R378, R423, R424, R442, R449, R452-R458).
-/

namespace Sys2Proof.Machine

/-! ## Tenants (R31, R453) -/

/-- Quotas as arg1 and arg2 give them (R452). -/
def quotaOf (x y : Nat) : Quota :=
  { maxproc := bits x 63 52, maxtiles := bits x 51 43, maxchan := bits x 42 26, maxnets := bits x 25 18
    priomax := bits x 17 15, spill := y / 2 ^ 32, resv := y % 2 ^ 32 }

/-- Quotas within their ranges (R31). -/
def Quota.ok (q : Quota) : Bool :=
  decide (q.maxproc ≤ 3072) && decide (q.maxtiles ≤ 384) && decide (q.maxchan ≤ 98304) && decide (1 ≤ q.maxnets)
    && decide (q.maxnets ≤ 255)

/-- A function number a port presents: its physical function, or a virtual function that is enabled; how many are is
the host's doing and left open (R453). -/
def State.presents (s : State) (port f : Nat) : Bool :=
  f == 0 || (decide (f ≤ 32) && decide (f ≤ Config.virtualFunctions (2 * s.draws + port)))

/-- TENANT.CREATE. -/
def State.tenantCreate (s : State) (fn : Nat) (hd : Word) (a : List Nat) : State :=
  let q := quotaOf (arg a 1) (arg a 2)
  let target := fn / 33 * 33 + arg a 0
  let bad := !s.presents (fn / 33) (arg a 0) || !q.ok
  let s := if arg a 0 = 0 then s else { s with draws := s.draws + 1 }
  if bad then s.answer fn hd 3 []
  else if (s.fn target).tenant.isSome then s.answer fn hd 6 []
  else match (List.range 32).find? (fun t => (mget s.tenants t).isNone), s.allocPage 4096 with
    | some t, some (root, s') =>
      let x : Tenant := { fn := target, quota := q, root, tables := [root], gens := [], faultq := [], reserve := [] }
      ({ s' with tenants := mset s'.tenants t x }.modFn target (fun f => { f with tenant := some t })).answer fn hd 0 [t]
    | _, _ => s.answer fn hd 4 []

/-- TENANT_CREATE (R453). -/
def execTenantCreate (fn : Nat) (s : State) : Res :=
  .next (s.mgmtCommand fn 0x01 3 (fun a => decide (arg a 0 < 64) && bits (arg a 1) 14 0 == 0) (fun s hd a => s.tenantCreate fn hd a))

/-- TENANT_QUOTA (R452): STATE where a quota falls below its charge. -/
def execTenantQuota (fn : Nat) (s : State) : Res :=
  .next (s.mgmtCommand fn 0x02 3 (fun a => decide (arg a 0 < 32) && bits (arg a 1) 14 0 == 0) (fun s hd a =>
    let q := quotaOf (arg a 1) (arg a 2)
    if (mget s.tenants (arg a 0)).isNone || !q.ok then s.answer fn hd 3 []
    else if !q.covers (s.charges (arg a 0)) then s.answer fn hd 6 []
    else (s.modTenant (arg a 0) (fun t => { t with quota := q })).answer fn hd 0 []))

/-- A tenant gone: its networks killed, its registrations revoked, its pages freed, its function unbound (R452). -/
def State.dropTenant (s : State) (k : Nat) (t : Tenant) : State :=
  let pages := s.pagesFrom t.root 1 4 ++ t.tables
  let s := (mkeys (s.netsOf k)).foldl (fun (s : State) n => s.killNet n) s
  let s := (s.flushTenant k).freePages pages
  { s.modFn t.fn (fun f => { f with tenant := none, window := none, discards := [] }) with
    tenants := mdel s.tenants k
    regs := s.regs.map (fun x => (x.1, if x.2.tenant = k then { x.2 with revoking := false, revoked := true } else x.2))
    imports := s.imports.filter (fun i => i.tenant != k) }

/-- TENANT.DESTROY, begun or gone on with: after the tenant command in progress, and once no process makes a kill wait,
no accepted remote request is under way and no access of the tenant either (R453). -/
def State.tenantDestroy (s : State) (fn : Nat) (hd : Word) (a : List Nat) : State :=
  match mget s.tenants (arg a 0) with
  | none => s.conclude fn hd 3 []
  | some t =>
    let nets := s.netsOf (arg a 0)
    let mine := fun (r : Reg) => r.tenant == arg a 0
    let waits := (t.fn != fn && (s.fn t.fn).busy.isSome) || nets.any (fun n => s.killWaits n.2)
      || s.accepted.any (fun x => (s.reg? x.key).any mine) || !s.olderDone (arg a 0) s.nextReq
    if waits then
      let s := if t.fn ≠ fn ∧ (s.fn t.fn).busy.isSome then s
        else { nets.foldl (fun (s : State) n => s.freeze n.2.procs true) s with
               regs := s.regs.map (fun x => (x.1, if mine x.2 && !x.2.revoked then { x.2 with revoking := true } else x.2)) }
      if (s.fn fn).busy.isSome then s else s.startBusy fn hd a []
    else (s.dropTenant (arg a 0) t).conclude fn hd 0 []

/-- TENANT_DESTROY (R452, R453). -/
def execTenantDestroy (fn : Nat) (s : State) : Res :=
  .next (match s.busyWith fn 0x03 with
    | some b => s.tenantDestroy fn b.header (b.args.map (·.toNat))
    | none => s.mgmtCommand fn 0x03 1 (fun a => decide (arg a 0 < 32)) (fun s hd a => s.tenantDestroy fn hd a))

/-! ## Topology and cue synchronisation (R378, R423) -/

/-- TOPO_SET (R423, R452): this package's number, or the port group of another. -/
def execTopoSet (fn : Nat) (s : State) : Res :=
  .next (s.mgmtCommand fn 0x04 1 (fun a => bits (arg a 0) 52 36 == 0) (fun s hd a =>
    let pkg := bits (arg a 0) 63 54
    (if (arg a 0).testBit 53 then { s with self := some pkg }
      else { s with routes := mset s.routes pkg (BitVec.ofNat 36 (arg a 0)) }).answer fn hd 0 []))

/-- CUE_SYNC (R378). -/
def execCueSync (fn : Nat) (s : State) : Res :=
  .next (s.mgmtCommand fn 0x05 1 (fun a => bits (arg a 0) 53 0 == 0) (fun s hd a =>
    let pkg := bits (arg a 0) 63 54
    if s.self ≠ some pkg ∧ !s.reachable pkg then s.answer fn hd 11 []
    else { s with cueRef := some pkg }.answer fn hd 0 []))

/-! ## HEALTH and BANK.RETIRE (R251-R257, R305) -/

/-- Tile, slice and bank of a HEALTH index. -/
def healthBank (idx : Nat) : Nat × Nat × Nat := (idx / 36, idx % 36 / 9, idx % 9)

/-- Which of the four HEALTH commands stands at the head of a function's channel; one of no known kind goes with the
first. -/
def State.healthKind (s : State) (fn : Nat) : Nat :=
  match s.command? fn 0x06 with
  | some (_, [x]) => if x.toNat / 2 ^ 56 < 4 then x.toNat / 2 ^ 56 else 0
  | _ => 0

/-- HEALTH of a kind (DEDUCED, log 46). -/
def State.health (s : State) (fn kind : Nat) (f : State → Word → Nat → Nat → State) : State :=
  if s.healthKind fn ≠ kind then s
  else s.mgmtCommand fn 0x06 1 (fun a => bits (arg a 0) 31 16 == 0) (fun s hd a =>
    if 4 ≤ arg a 0 / 2 ^ 56 then s.answer fn hd 3 [] else f s hd (bits (arg a 0) 55 32) (bits (arg a 0) 15 0))

/-- HEALTH_READ_CEC (R251). -/
def execHealthReadCec (fn : Nat) (s : State) : Res :=
  .next (s.health fn 0 (fun s hd idx _ =>
    let (t, sl, b) := healthBank idx
    if 384 ≤ t then s.answer fn hd 3 [] else s.answer fn hd 0 [(vget ((s.tile t).slice sl).cec b 0).toNat]))

/-- HEALTH_READ_SERVER (R305). -/
def execHealthReadServer (fn : Nat) (s : State) : Res :=
  .next (s.health fn 1 (fun s hd idx _ =>
    if 256 ≤ idx then s.answer fn hd 3 []
    else s.answer fn hd 0 [(s.server idx).correctable.toNat * 2 ^ 32 + (s.server idx).uncorrectable.toNat]))

/-- HEALTH_SET_THRESHOLD (R251): a data bank or understudy of a normal slice whose count is there already is retired. -/
def execHealthSetThreshold (fn : Nat) (s : State) : Res :=
  .next (s.health fn 2 (fun s hd idx thr =>
    let (t, sl, b) := healthBank idx
    if 384 ≤ t ∨ thr < 1 ∨ 64 < thr then s.answer fn hd 3 []
    else (s.modTile t (fun x =>
      let x := x.modSlice sl (fun y => { y with threshold := y.threshold.setIfInBounds b thr })
      if (x.slice sl).st = .normal ∧ thr ≤ (vget (x.slice sl).cec b 0).toNat then x.retireBank sl b else x)).answer fn hd 0 []))

/-- HEALTH_CLEAR (R251, R305). -/
def execHealthClear (fn : Nat) (s : State) : Res :=
  .next (s.health fn 3 (fun s hd _ _ =>
    { s with
      tiles := s.tiles.map (fun (x : Nat × Tile) =>
        (x.1, { x.2 with slices := x.2.slices.map (fun (y : Slice) => { y with cec := Vector.replicate 9 0 }) }))
      servers := s.servers.map (fun (x : Nat × Server) => (x.1, { x.2 with correctable := 0, uncorrectable := 0 })) }.answer fn hd 0 []))

/-- BANK_RETIRE (R252, R255-R257). -/
def execBankRetire (fn : Nat) (s : State) : Res :=
  .next (s.mgmtCommand fn 0x07 1 (fun a => bits (arg a 0) 47 0 == 0) (fun s hd a =>
    let t := bits (arg a 0) 63 55
    let sl := bits (arg a 0) 54 53
    let b := bits (arg a 0) 52 49
    if 384 ≤ t ∨ 8 < b then s.answer fn hd 3 []
    else
      let s := s.modTile t (fun x => x.retireBank sl b)
      (if (arg a 0).testBit 48 then { s with fuses := { s.fuses with banks := nsAdd s.fuses.banks (36 * t + 9 * sl + b) } }
        else s).answer fn hd 0 []))

/-! ## SNAPSHOT (R424, R454) -/

/-- The live ports of a package's group that are in flit framing. -/
def State.livePorts (s : State) (pkg : Nat) : List Nat :=
  match mget s.routes pkg with
  | none => []
  | some g => (List.range 36).filter (fun k => g.getLsbD k && (s.vport k).up && (s.vport k).bulk.isNone && (s.vport k).farBulk.isNone)

/-- SNAPSHOT begins: every running network is held, and the ports go into bulk framing. Whether the registration at the
target will do is not known here (DEDUCED, log 68). -/
def State.snapshotBegin (s : State) (fn : Nat) (hd : Word) (a : List Nat) : State :=
  let pkg := bits (arg a 0) 63 54
  let key := BitVec.ofNat 12 (bits (arg a 0) 53 42)
  let n := bits (arg a 0) 41 36
  let ports := (s.livePorts pkg).take n
  if n < 2 ∨ 36 < n then s.answer fn hd 3 []
  else if ports.length < n then s.answer fn hd 11 []
  else
    let (bad, s) := s.pick 2
    if bad = 1 then s.answer fn hd 3 []
    else
      let running := mkeys (s.nets.filter (fun x => x.2.st == .running))
      let s := running.foldl (fun (s : State) k => s.holdNet k) s
      let s := ports.foldl (fun (s : State) k => s.modVPort k (fun p => { p with bulk := some key })) s
      { s with snapshot := some (fn, running), vout := s.vout ++ [Packet.bulk pkg key n]
               bulk := some { pkg, key, ports, next := 0, again := [] } }.startBusy fn hd a ports

/-- A block of physical memory as its bulk block (R424). -/
def bulkOf (n : Nat) (b : List Byte) (psn : List Bool) : BulkBlock :=
  { header := (Config.linkCrc (leBytes 4 n ++ b)).setWidth 64 * 2 ^ 32 ||| BitVec.ofNat 64 n, payload := b
    poison := (List.range 64).foldl (fun x w => if psn.getD (8 * w) false then x ||| (1#64 <<< w) else x) 0 }

/-- The blocks of the package's memory (R296, R454). -/
def bulkBlocks : Nat := Config.memBytes / 512

/-- A block goes out on a reserved port: one that was NAKed again, else the next (R424, R454). -/
def State.bulkSend (s : State) : State :=
  match s.bulk with
  | none => s
  | some c =>
    let next := fun (s : State) (n : Nat) (c : BulkCopy) =>
      let (s, b, psn) := s.physRead (512 * n) 512
      let (k, s) := s.pick c.ports.length
      { s with bulk := some c, vout := s.vout ++ [.block (c.ports.getD k 0) c.key (bulkOf n b psn)] }
    match c.again with
    | n :: rest => next s n { c with again := rest }
    | [] => if c.next < bulkBlocks then next s c.next { c with next := c.next + 1 } else s

/-- A block that has been sent is NAKed by its number (R424). -/
def State.bulkNak (s : State) (n : Nat) : State :=
  { s with bulk := s.bulk.map (fun c => if n < c.next then { c with again := c.again ++ [n] } else c) }

/-- Every block has been sent, and none is asked for again. -/
def State.bulkDone (s : State) : Bool :=
  match s.bulk with
  | none => true
  | some c => c.again.isEmpty && decide (bulkBlocks ≤ c.next)

/-- SNAPSHOT ends: every byte has been performed at the target; the ports return to flits and the networks it held
run (DEDUCED, log 68). -/
def State.snapshotEnd (s : State) (fn : Nat) (b : Busy) : State :=
  let nets := match s.snapshot with
    | some (_, l) => l
    | none => []
  let s := b.held.foldl (fun (s : State) k => s.modVPort k (fun p => { p with bulk := none })) s
  let s := { s with snapshot := none, bulk := none }
  (nets.foldl (fun (s : State) k => s.unholdNet k) s).finishBusy fn 0 []

/-- SNAPSHOT (R454), begun or ended. -/
def execSnapshot (fn : Nat) (s : State) : Res :=
  .next (match s.busyWith fn 0x08 with
    | some b => if s.bulkDone then s.snapshotEnd fn b else s
    | none =>
      if s.snapshot.isSome then s
      else s.mgmtCommand fn 0x08 1 (fun a => bits (arg a 0) 35 0 == 0) (fun s hd a => s.snapshotBegin fn hd a))

/-! ## Attestation (R456) -/

/-- The report's 128 bytes. -/
def State.report (s : State) (fn : Nat) (a : List Nat) : List Byte :=
  let tenant := ((s.fn fn).tenant).getD 0
  let low := 0x54535441 + (fn / 33) * 2 ^ 338 + (fn % 33) * 2 ^ 332 + tenant * 2 ^ 339 + s.fuses.bootCount * 2 ^ 344
    + Config.isaRev.toNat * 2 ^ 360 + Config.romId.toNat * 2 ^ 368 + s.cue * 2 ^ 384 + Config.serial.toNat * 2 ^ 448
  leBytes 64 low ++ sha256 (Config.fuseImage s.fuses.banks) ++ ((List.range 4).flatMap (fun k => leBytes 8 (arg a (k + 1))))

/-- The report, its HSS signature and the HSS public key: 5,584 bytes. -/
def State.attestation (s : State) (fn : Nat) (a : List Nat) : List Byte :=
  let r := s.report fn a
  r ++ (List.range 5396).map (fun i => Config.hssByte s.fuses.bootCount s.attests r i)
    ++ (List.range 60).map Config.hssKeyByte

/-- ATTEST. -/
def State.attest (s : State) (fn : Nat) (hd : Word) (a : List Nat) : State :=
  if 32768 ≤ s.attests then s.answer fn hd 12 []
  else
    let pieces := if arg a 0 % 8 ≠ 0 then none
      else (s.fn fn).tenant.bind (fun t => s.prompterPieces t (arg a 0) 5584 kWrite)
    match pieces with
    | none => s.answer fn hd 3 []
    | some l => { s.writePieces (s.attestation fn a) l with attests := s.attests + 1 }.answer fn hd 0 [5584]

/-- ATTEST (R456). -/
def execAttest (fn : Nat) (s : State) : Res :=
  .next (s.takeCommand fn 0x0A (· == 5) (fun hd _ => noNet hd) (fun s hd a => s.attest fn hd a))

/-! ## Resets and boot (R4, R257, R455, R457) -/

/-- Every state but the fuses lost, before boot has run. The model's own fields stay (DEDUCED, log 70). -/
def State.lost (s : State) (powered : Bool) : State :=
  { State.reset with powered, fuses := s.fuses, agenda := s.agenda, picks := s.picks, draws := s.draws
                     completions := s.completions, vout := s.vout }

/-- The tiles that fused banks leave degraded, or out of placement with two in a slice (R257). -/
def bootTiles (banks : NatSet) : AMap Tile :=
  banks.foldl (fun m x =>
    let (t, sl, b) := healthBank x
    let tile := mgetD m t Tile.init
    let tile := if (tile.slice sl).st = .normal then tile.modSlice sl (fun y => { y with st := .degraded b })
      else { tile with withdrawn := true }
    mset m t tile) []

/-- POWER_GOOD (R455): boot, up to the setting of READY (DEDUCED, log 70). -/
def State.boot (s : State) : State :=
  if s.ready then s
  else
    let full := decide (32768 ≤ s.fuses.bootCount)
    let s := s.lost true
    { s with
      ready := true, tiles := bootTiles s.fuses.banks, attests := if full then 32768 else 0
      fuses := { s.fuses with bootCount := if full then 32768 else s.fuses.bootCount + 1 } }

/-- POWER_GOOD. -/
def execPowerGood (s : State) : Res := .next s.boot

/-- POWER_LOSS (R4). -/
def execPowerLoss (s : State) : Res := .next (s.lost false)

/-- PORT_A_RESET (R457): a module reset. -/
def execPortAReset (s : State) : Res := .next (s.lost s.powered)

/-- MODULE_RESET (R452, R457): no reply. -/
def execModuleReset (fn : Nat) (s : State) : Res :=
  .next (s.mgmtCommand fn 0x09 0 (fun _ => true) (fun s _ _ => s.lost s.powered))

/-- A slot emptied: what an outlet holds is discarded. -/
def State.emptySlots (s : State) (fn : Nat) : State :=
  (s.slotsOf fn false).foldl (fun (s : State) x => s.consume x.2.1 x.2.2.buffer.length) s

/-- Tokens a host has written that wait behind its earlier writes, discarded: their credits return (R457). -/
def State.dropWritten (s : State) (fn : Nat) : State :=
  (s.fn fn).posted.foldl (fun (s : State) (x : Posted) => match x with
    | .token c k _ => s.modChan c (fun x => x.modProd k (fun d =>
        { d with returning := d.returning + 1, sent := d.sent - 1, received := d.received - 1 }))
    | _ => s) s

/-- Reports of completed networks, which answer no command (R483). -/
def isReport (l : List Token) : Bool :=
  match l with
  | t :: _ => headerOp t.word == 0x80
  | [] => false

/-- The notice of a function reset put before everything on FAULTOUT; what no longer fits goes back to the queue
(DEDUCED, log 69). -/
def State.resetNotice (s : State) (fn : Nat) : State :=
  let f := s.fn fn
  let l := [faultToken bareHead, faultToken (noticeWord 0xC0 0 0 0)] ++ f.fault
  let past : List FaultTok := (l.drop 256).map (fun t => { word := t.word, discard := none })
  let s := s.modFn fn (fun f =>
    let f' := { f with fault := l.take 256 }
    if f.fault.isEmpty then f'.signal 1 else f')
  match f.tenant with
  | some t => s.modTenant t (fun x => { x with faultq := past ++ x.faultq })
  | none => s.modFn fn (fun f => { f with faultWait := l.drop 256 ++ f.faultWait })

/-- A function reset (R457) (DEDUCED, log 69). -/
def State.resetFn (s : State) (fn : Nat) : State :=
  let s := ((s.emptySlots fn).dropWritten fn).modFn fn (fun f => { f with
    posted := f.posted.filter (fun x => match x with
      | .token _ _ _ | .command _ => false
      | _ => true)
    reads := [], cmdin := [], cmdCredits := 64, reply := [], replyWait := f.replyWait.filter isReport, window := none
    busy := f.busy.map (fun (b : Busy) => { b with mute := true }) })
  let s := s.modFn fn (fun f => f.settleReplies f.replyWait.length)
  let s : State := match (s.fn fn).tenant with
    | some t => (s.nets.filter (fun x => x.2.tenant == t && x.2.st == .running)).foldl (fun (s : State) x => s.holdNet x.1) s
    | none => s
  if fn % 33 == 0 || (s.fn fn).tenant.isSome then s.resetNotice fn else s

/-- Every function of a port reset. -/
def State.resetPort (s : State) (port : Nat) : State :=
  (List.range 33).foldl (fun (s : State) f => if f == 0 || (mget s.fns (33 * port + f)).isSome then s.resetFn (33 * port + f) else s) s

/-- PORT_B_RESET (R457). -/
def execPortBReset (s : State) : Res := .next (s.resetPort 1)

/-- FUNCTION_RESET (R457): of the physical function, every function of its port. -/
def execFunctionReset (fn : Nat) (s : State) : Res :=
  .next (if fn % 33 = 0 then s.resetPort (fn / 33) else s.resetFn fn)

/-! ## Temperature (R458) -/

/-- THERMAL_HOT: 105 °C. -/
def execThermalHot (s : State) : Res := .next { s with hot := true }

/-- THERMAL_HOLD: 115 °C, every running network is held. -/
def execThermalHold (s : State) : Res :=
  .next { s with
    thermalHeld := true
    nets := s.nets.map (fun x => (x.1, if x.2.st = .running then { x.2 with st := .held, thermal := true } else x.2)) }

/-- THERMAL_RESUME: below 100 °C, the networks so held run again, or once a SNAPSHOT has ended. -/
def execThermalResume (s : State) : Res :=
  let back := mkeys (s.nets.filter (fun x => x.2.st == .held && x.2.thermal))
  let s := { s with thermalHeld := false, hot := false }
  .next (match s.snapshot with
    | none => back.foldl (fun (s : State) k => s.unholdNet k) s
    | some (fn, l) =>
      { back.foldl (fun (s : State) k => s.holdNet k) s with snapshot := some (fn, l ++ back) })

/-- THERMAL_SHUTDOWN: 125 °C, module power is removed. -/
def execThermalShutdown (s : State) : Res := .next (s.lost false)

end Sys2Proof.Machine
end

