-- ==== Sys2Proof/Machine/Dispatch.lean ====
section
/-!
DEFINITION. What every instruction, event and command does: one arm per row of the opcode table.
-/

namespace Sys2Proof.Machine

/-- The meaning of an instruction: a scalar word acts on the process `cur` names, a vector word as a convoy of
its own, an event or a command on the unit it names. -/
def exec (i : Instr) (s : State) : Host.Outcome State Fault Refusal :=
  match i with
  | .sysc => Sys2Proof.Machine.execSysc s
  | .eret => Sys2Proof.Machine.execEret s
  | .brk => Sys2Proof.Machine.execBrk s
  | .retire => Sys2Proof.Machine.execRetire s
  | .add a b c => Sys2Proof.Machine.execAdd a b c s
  | .sub a b c => Sys2Proof.Machine.execSub a b c s
  | .and a b c => Sys2Proof.Machine.execAnd a b c s
  | .or a b c => Sys2Proof.Machine.execOr a b c s
  | .xor a b c => Sys2Proof.Machine.execXor a b c s
  | .andn a b c => Sys2Proof.Machine.execAndn a b c s
  | .orn a b c => Sys2Proof.Machine.execOrn a b c s
  | .sll a b c => Sys2Proof.Machine.execSll a b c s
  | .srl a b c => Sys2Proof.Machine.execSrl a b c s
  | .sra a b c => Sys2Proof.Machine.execSra a b c s
  | .rol a b c => Sys2Proof.Machine.execRol a b c s
  | .ror a b c => Sys2Proof.Machine.execRor a b c s
  | .slt a b c => Sys2Proof.Machine.execSlt a b c s
  | .sltu a b c => Sys2Proof.Machine.execSltu a b c s
  | .min a b c => Sys2Proof.Machine.execMin a b c s
  | .max a b c => Sys2Proof.Machine.execMax a b c s
  | .minu a b c => Sys2Proof.Machine.execMinu a b c s
  | .maxu a b c => Sys2Proof.Machine.execMaxu a b c s
  | .clz a b => Sys2Proof.Machine.execClz a b s
  | .ctz a b => Sys2Proof.Machine.execCtz a b s
  | .popc a b => Sys2Proof.Machine.execPopc a b s
  | .brev a b => Sys2Proof.Machine.execBrev a b s
  | .bswap a b => Sys2Proof.Machine.execBswap a b s
  | .sextb a b => Sys2Proof.Machine.execSextb a b s
  | .sexth a b => Sys2Proof.Machine.execSexth a b s
  | .sextw a b => Sys2Proof.Machine.execSextw a b s
  | .zextw a b => Sys2Proof.Machine.execZextw a b s
  | .addi a b imm => Sys2Proof.Machine.execAddi a b imm s
  | .andi a b imm => Sys2Proof.Machine.execAndi a b imm s
  | .ori a b imm => Sys2Proof.Machine.execOri a b imm s
  | .xori a b imm => Sys2Proof.Machine.execXori a b imm s
  | .slti a b imm => Sys2Proof.Machine.execSlti a b imm s
  | .sltiu a b imm => Sys2Proof.Machine.execSltiu a b imm s
  | .slli a b n => Sys2Proof.Machine.execSlli a b n s
  | .srli a b n => Sys2Proof.Machine.execSrli a b n s
  | .srai a b n => Sys2Proof.Machine.execSrai a b n s
  | .lih a pos imm => Sys2Proof.Machine.execLih a pos imm s
  | .mul a b c => Sys2Proof.Machine.execMul a b c s
  | .mulh a b c => Sys2Proof.Machine.execMulh a b c s
  | .mulhu a b c => Sys2Proof.Machine.execMulhu a b c s
  | .div a b c => Sys2Proof.Machine.execDiv a b c s
  | .divu a b c => Sys2Proof.Machine.execDivu a b c s
  | .rem a b c => Sys2Proof.Machine.execRem a b c s
  | .remu a b c => Sys2Proof.Machine.execRemu a b c s
  | .fadd a b c => Sys2Proof.Machine.execFadd a b c s
  | .fsub a b c => Sys2Proof.Machine.execFsub a b c s
  | .fmul cls a b c => Sys2Proof.Machine.execFmul cls a b c s
  | .fma cls a b c => Sys2Proof.Machine.execFma cls a b c s
  | .fdiv a b c => Sys2Proof.Machine.execFdiv a b c s
  | .fsqrt a b => Sys2Proof.Machine.execFsqrt a b s
  | .fmin a b c => Sys2Proof.Machine.execFmin a b c s
  | .fmax a b c => Sys2Proof.Machine.execFmax a b c s
  | .fcmpeq a b c => Sys2Proof.Machine.execFcmpeq a b c s
  | .fcmplt a b c => Sys2Proof.Machine.execFcmplt a b c s
  | .fcmple a b c => Sys2Proof.Machine.execFcmple a b c s
  | .fcvtif rm a b => Sys2Proof.Machine.execFcvtif rm a b s
  | .fcvtfi rm a b => Sys2Proof.Machine.execFcvtfi rm a b s
  | .fcvtbf rm a b => Sys2Proof.Machine.execFcvtbf rm a b s
  | .fcvtfb a b => Sys2Proof.Machine.execFcvtfb a b s
  | .ld sz ord a b disp => Sys2Proof.Machine.execLd sz ord a b disp s
  | .ldu sz ord a b disp => Sys2Proof.Machine.execLdu sz ord a b disp s
  | .st sz ord a b disp => Sys2Proof.Machine.execSt sz ord a b disp s
  | .amoadd sz ord a b c => Sys2Proof.Machine.execAmoadd sz ord a b c s
  | .amoand sz ord a b c => Sys2Proof.Machine.execAmoand sz ord a b c s
  | .amoor sz ord a b c => Sys2Proof.Machine.execAmoor sz ord a b c s
  | .amoxor sz ord a b c => Sys2Proof.Machine.execAmoxor sz ord a b c s
  | .amomin sz ord a b c => Sys2Proof.Machine.execAmomin sz ord a b c s
  | .amomax sz ord a b c => Sys2Proof.Machine.execAmomax sz ord a b c s
  | .amominu sz ord a b c => Sys2Proof.Machine.execAmominu sz ord a b c s
  | .amomaxu sz ord a b c => Sys2Proof.Machine.execAmomaxu sz ord a b c s
  | .amoswap sz ord a b c => Sys2Proof.Machine.execAmoswap sz ord a b c s
  | .cas sz ord a b c => Sys2Proof.Machine.execCas sz ord a b c s
  | .beq a b disp => Sys2Proof.Machine.execBeq a b disp s
  | .bne a b disp => Sys2Proof.Machine.execBne a b disp s
  | .blt a b disp => Sys2Proof.Machine.execBlt a b disp s
  | .bge a b disp => Sys2Proof.Machine.execBge a b disp s
  | .bltu a b disp => Sys2Proof.Machine.execBltu a b disp s
  | .bgeu a b disp => Sys2Proof.Machine.execBgeu a b disp s
  | .jal a disp => Sys2Proof.Machine.execJal a disp s
  | .jalr a b imm => Sys2Proof.Machine.execJalr a b imm s
  | .sig sig => Sys2Proof.Machine.execSig sig s
  | .recv a q => Sys2Proof.Machine.execRecv a q s
  | .recvn a q => Sys2Proof.Machine.execRecvn a q s
  | .send a q => Sys2Proof.Machine.execSend a q s
  | .sendc a q tag => Sys2Proof.Machine.execSendc a q tag s
  | .vconf a n b => Sys2Proof.Machine.execVconf a n b s
  | .vfetch disp => Sys2Proof.Machine.execVfetch disp s
  | .vloop a b c => Sys2Proof.Machine.execVloop a b c s
  | .fenceSv => Sys2Proof.Machine.execFenceSv s
  | .fenceVs => Sys2Proof.Machine.execFenceVs s
  | .fenceVv => Sys2Proof.Machine.execFenceVv s
  | .vsync => Sys2Proof.Machine.execVsync s
  | .msetl a b c => Sys2Proof.Machine.execMsetl a b c s
  | .sconf b stream => Sys2Proof.Machine.execSconf b stream s
  | .sstep mask => Sys2Proof.Machine.execSstep mask s
  | .skick b stream => Sys2Proof.Machine.execSkick b stream s
  | .stwait a b stream => Sys2Proof.Machine.execStwait a b stream s
  | .sdrain stream => Sys2Proof.Machine.execSdrain stream s
  | .dispq b ev box => Sys2Proof.Machine.execDispq b ev box s
  | .evset b => Sys2Proof.Machine.execEvset b s
  | .evclr b => Sys2Proof.Machine.execEvclr b s
  | .evwait b => Sys2Proof.Machine.execEvwait b s
  | .cue b c => Sys2Proof.Machine.execCue b c s
  | .cuewait b => Sys2Proof.Machine.execCuewait b s
  | .rdcue a => Sys2Proof.Machine.execRdcue a s
  | .xpost b c => Sys2Proof.Machine.execXpost b c s
  | .xwait a b => Sys2Proof.Machine.execXwait a b s
  | .xcoll b c => Sys2Proof.Machine.execXcoll b c s
  | .ctlr a x => Sys2Proof.Machine.execCtlr a x s
  | .ctlw b x => Sys2Proof.Machine.execCtlw b x s
  | .ctlrVflags a => Sys2Proof.Machine.execCtlrVflags a s
  | .ctlrFfe a => Sys2Proof.Machine.execCtlrFfe a s
  | .ctlrPmbox a k => Sys2Proof.Machine.execCtlrPmbox a k s
  | .ctlwVflags b => Sys2Proof.Machine.execCtlwVflags b s
  | .ctlwFfe b => Sys2Proof.Machine.execCtlwFfe b s
  | .ctlwVbcnt b k => Sys2Proof.Machine.execCtlwVbcnt b k s
  | .ctlwSrseed b => Sys2Proof.Machine.execCtlwSrseed b s
  | .ctlwXtab0 b => Sys2Proof.Machine.execCtlwXtab0 b s
  | .ctlwXtab1 b => Sys2Proof.Machine.execCtlwXtab1 b s
  | .ctlwEncore b => Sys2Proof.Machine.execCtlwEncore b s
  | .ctlwPmbox b k => Sys2Proof.Machine.execCtlwPmbox b k s
  | .vstop => Sys2Proof.Machine.execVstop s
  | .vnop ch => Sys2Proof.Machine.execVnop ch s
  | .vsig sig => Sys2Proof.Machine.execVsig sig s
  | .vpsn h kd va => Sys2Proof.Machine.execVpsn h kd va s
  | .vpclr h vd => Sys2Proof.Machine.execVpclr h vd s
  | .mring sl => Sys2Proof.Machine.execMring sl s
  | .vadd h vd va vb => Sys2Proof.Machine.execVadd h vd va vb s
  | .vaddImm h vd va imm => Sys2Proof.Machine.execVaddImm h vd va imm s
  | .vsub h vd va vb => Sys2Proof.Machine.execVsub h vd va vb s
  | .vsubImm h vd va imm => Sys2Proof.Machine.execVsubImm h vd va imm s
  | .vadds h vd va vb => Sys2Proof.Machine.execVadds h vd va vb s
  | .vaddsImm h vd va imm => Sys2Proof.Machine.execVaddsImm h vd va imm s
  | .vsubs h vd va vb => Sys2Proof.Machine.execVsubs h vd va vb s
  | .vsubsImm h vd va imm => Sys2Proof.Machine.execVsubsImm h vd va imm s
  | .vmul h vd va vb => Sys2Proof.Machine.execVmul h vd va vb s
  | .vmulImm h vd va imm => Sys2Proof.Machine.execVmulImm h vd va imm s
  | .vmulh h vd va vb => Sys2Proof.Machine.execVmulh h vd va vb s
  | .vmulhImm h vd va imm => Sys2Proof.Machine.execVmulhImm h vd va imm s
  | .vmad h vd va vb vc => Sys2Proof.Machine.execVmad h vd va vb vc s
  | .vmin h vd va vb => Sys2Proof.Machine.execVmin h vd va vb s
  | .vminImm h vd va imm => Sys2Proof.Machine.execVminImm h vd va imm s
  | .vmax h vd va vb => Sys2Proof.Machine.execVmax h vd va vb s
  | .vmaxImm h vd va imm => Sys2Proof.Machine.execVmaxImm h vd va imm s
  | .vand h vd va vb => Sys2Proof.Machine.execVand h vd va vb s
  | .vandImm h vd va imm => Sys2Proof.Machine.execVandImm h vd va imm s
  | .vor h vd va vb => Sys2Proof.Machine.execVor h vd va vb s
  | .vorImm h vd va imm => Sys2Proof.Machine.execVorImm h vd va imm s
  | .vxor h vd va vb => Sys2Proof.Machine.execVxor h vd va vb s
  | .vxorImm h vd va imm => Sys2Proof.Machine.execVxorImm h vd va imm s
  | .vsll h vd va vb => Sys2Proof.Machine.execVsll h vd va vb s
  | .vsllImm h vd va imm => Sys2Proof.Machine.execVsllImm h vd va imm s
  | .vsrl h vd va vb => Sys2Proof.Machine.execVsrl h vd va vb s
  | .vsrlImm h vd va imm => Sys2Proof.Machine.execVsrlImm h vd va imm s
  | .vsra h vd va vb => Sys2Proof.Machine.execVsra h vd va vb s
  | .vsraImm h vd va imm => Sys2Proof.Machine.execVsraImm h vd va imm s
  | .vabs h vd va => Sys2Proof.Machine.execVabs h vd va s
  | .vneg h vd va => Sys2Proof.Machine.execVneg h vd va s
  | .vfadd h vd va vb => Sys2Proof.Machine.execVfadd h vd va vb s
  | .vfsub h vd va vb => Sys2Proof.Machine.execVfsub h vd va vb s
  | .vfmul h vd va vb => Sys2Proof.Machine.execVfmul h vd va vb s
  | .vfma h vd va vb vc => Sys2Proof.Machine.execVfma h vd va vb vc s
  | .vfnma h vd va vb vc => Sys2Proof.Machine.execVfnma h vd va vb vc s
  | .vfmin h vd va vb => Sys2Proof.Machine.execVfmin h vd va vb s
  | .vfmax h vd va vb => Sys2Proof.Machine.execVfmax h vd va vb s
  | .vfabs h vd va => Sys2Proof.Machine.execVfabs h vd va s
  | .vfneg h vd va => Sys2Proof.Machine.execVfneg h vd va s
  | .vfscl h vd va vb form => Sys2Proof.Machine.execVfscl h vd va vb form s
  | .vfrcp h vd va => Sys2Proof.Machine.execVfrcp h vd va s
  | .vfrsq h vd va => Sys2Proof.Machine.execVfrsq h vd va s
  | .vfexp2 h vd va => Sys2Proof.Machine.execVfexp2 h vd va s
  | .vflog2 h vd va => Sys2Proof.Machine.execVflog2 h vd va s
  | .vcvt h vd va src sat rm => Sys2Proof.Machine.execVcvt h vd va src sat rm s
  | .vcvtx h vd va => Sys2Proof.Machine.execVcvtx h vd va s
  | .vmxup h vd va rm => Sys2Proof.Machine.execVmxup h vd va rm s
  | .vmxpk h vd va src rm => Sys2Proof.Machine.execVmxpk h vd va src rm s
  | .vcmp h kd va vb cond => Sys2Proof.Machine.execVcmp h kd va vb cond s
  | .vfcmp h kd va vb cond => Sys2Proof.Machine.execVfcmp h kd va vb cond s
  | .vwhile h kd gi gn uns => Sys2Proof.Machine.execVwhile h kd gi gn uns s
  | .kand h kd ka kb => Sys2Proof.Machine.execKand h kd ka kb s
  | .kor h kd ka kb => Sys2Proof.Machine.execKor h kd ka kb s
  | .kxor h kd ka kb => Sys2Proof.Machine.execKxor h kd ka kb s
  | .kandn h kd ka kb => Sys2Proof.Machine.execKandn h kd ka kb s
  | .knot h kd ka => Sys2Proof.Machine.execKnot h kd ka s
  | .kmov h kd ka => Sys2Proof.Machine.execKmov h kd ka s
  | .kpop h gd ka => Sys2Proof.Machine.execKpop h gd ka s
  | .kfirst h gd ka => Sys2Proof.Machine.execKfirst h gd ka s
  | .vmxv h kd va => Sys2Proof.Machine.execVmxv h kd va s
  | .vmov h vd va => Sys2Proof.Machine.execVmov h vd va s
  | .vbcast h vd ga => Sys2Proof.Machine.execVbcast h vd ga s
  | .vbcastb h vd va src log2B => Sys2Proof.Machine.execVbcastb h vd va src log2B s
  | .vgathr h vd va vb => Sys2Proof.Machine.execVgathr h vd va vb s
  | .vperm h vd va vb => Sys2Proof.Machine.execVperm h vd va vb s
  | .vsldu h vd va vb n => Sys2Proof.Machine.execVsldu h vd va vb n s
  | .vsldd h vd va vb n => Sys2Proof.Machine.execVsldd h vd va vb n s
  | .vcmpr h vd va => Sys2Proof.Machine.execVcmpr h vd va s
  | .vexpd h vd va => Sys2Proof.Machine.execVexpd h vd va s
  | .viota h vd form => Sys2Proof.Machine.execViota h vd form s
  | .vext ch et gd va gi => Sys2Proof.Machine.execVext ch et gd va gi s
  | .vins ch et vd ga gi => Sys2Proof.Machine.execVins ch et vd ga gi s
  | .vrsum h vd va => Sys2Proof.Machine.execVrsum h vd va s
  | .vrmax h vd va => Sys2Proof.Machine.execVrmax h vd va s
  | .vrmin h vd va => Sys2Proof.Machine.execVrmin h vd va s
  | .vscan h vd va op => Sys2Proof.Machine.execVscan h vd va op s
  | .vfrsum h vd va => Sys2Proof.Machine.execVfrsum h vd va s
  | .vfrmax h vd va => Sys2Proof.Machine.execVfrmax h vd va s
  | .vfrmin h vd va => Sys2Proof.Machine.execVfrmin h vd va s
  | .vfscan h vd va op => Sys2Proof.Machine.execVfscan h vd va op s
  | .vld h ord vd vb disp => Sys2Proof.Machine.execVld h ord vd vb disp s
  | .vst h ord vd vb disp => Sys2Proof.Machine.execVst h ord vd vb disp s
  | .vlds h ord vd vb vc disp => Sys2Proof.Machine.execVlds h ord vd vb vc disp s
  | .vsts h ord vd vb vc disp => Sys2Proof.Machine.execVsts h ord vd vb vc disp s
  | .vldx h ord iw vd va vb disp => Sys2Proof.Machine.execVldx h ord iw vd va vb disp s
  | .vstx h ord iw vd va vb disp => Sys2Proof.Machine.execVstx h ord iw vd va vb disp s
  | .vldff h ord vd vb disp => Sys2Proof.Machine.execVldff h ord vd vb disp s
  | .vldffStrided h ord vd vb vc disp => Sys2Proof.Machine.execVldffStrided h ord vd vb vc disp s
  | .vldffIndexed h ord iw vd va vb disp => Sys2Proof.Machine.execVldffIndexed h ord iw vd va vb disp s
  | .vamo h ord op iw ret vd va vb vc => Sys2Proof.Machine.execVamo h ord op iw ret vd va vb vc s
  | .vamoo h ord op iw ret vd va vb vc => Sys2Proof.Machine.execVamoo h ord op iw ret vd va vb vc s
  | .vldgl h ord iw vd va vb => Sys2Proof.Machine.execVldgl h ord iw vd va vb s
  | .vstsc h ord iw kd vd va vb => Sys2Proof.Machine.execVstsc h ord iw kd vd va vb s
  | .vsadd h ord iw vd va vb => Sys2Proof.Machine.execVsadd h ord iw vd va vb s
  | .mzero ch acc => Sys2Proof.Machine.execMzero ch acc s
  | .mopa h acc va sl => Sys2Proof.Machine.execMopa h acc va sl s
  | .mops h acc va sl => Sys2Proof.Machine.execMops h acc va sl s
  | .mread h acc va m0 rm => Sys2Proof.Machine.execMread h acc va m0 rm s
  | .mwrite h acc va m0 => Sys2Proof.Machine.execMwrite h acc va m0 s
  | .msaveAcc ch ord acc vc disp => Sys2Proof.Machine.execMsaveAcc ch ord acc vc disp s
  | .msaveLatch ch ord sl scale vc disp => Sys2Proof.Machine.execMsaveLatch ch ord sl scale vc disp s
  | .mloadAcc ch ord acc vc disp => Sys2Proof.Machine.execMloadAcc ch ord acc vc disp s
  | .mloadLatch ch ord sl scale vc disp => Sys2Proof.Machine.execMloadLatch ch ord sl scale vc disp s
  | .vsend h va q tag => Sys2Proof.Machine.execVsend h va q tag s
  | .vrecv h vd q => Sys2Proof.Machine.execVrecv h vd q s
  | .convoyStart tile => Sys2Proof.Machine.execConvoyStart tile s
  | .convoyRetire pid cid => Sys2Proof.Machine.execConvoyRetire pid cid s
  | .vectorMemoryReply pid cid => Sys2Proof.Machine.execVectorMemoryReply pid cid s
  | .matrixMemberStart tile => Sys2Proof.Machine.execMatrixMemberStart tile s
  | .matrixConvoyRetire tile => Sys2Proof.Machine.execMatrixConvoyRetire tile s
  | .mringRoundBegin ring sl => Sys2Proof.Machine.execMringRoundBegin ring sl s
  | .mringRoundEnd pid sl => Sys2Proof.Machine.execMringRoundEnd pid sl s
  | .loopRegister pid => Sys2Proof.Machine.execLoopRegister pid s
  | .iterationStart pid task => Sys2Proof.Machine.execIterationStart pid task s
  | .iterationRetire pid task => Sys2Proof.Machine.execIterationRetire pid task s
  | .parkedWake pid => Sys2Proof.Machine.execParkedWake pid s
  | .memoryReply pid => Sys2Proof.Machine.execMemoryReply pid s
  | .tokenLaunch pid => Sys2Proof.Machine.execTokenLaunch pid s
  | .tokenArrival chan prod => Sys2Proof.Machine.execTokenArrival chan prod s
  | .creditArrival chan prod => Sys2Proof.Machine.execCreditArrival chan prod s
  | .spillRefill chan => Sys2Proof.Machine.execSpillRefill chan s
  | .cueFrameBoundary => Sys2Proof.Machine.execCueFrameBoundary s
  | .inheritanceFlitArrival chan prio => Sys2Proof.Machine.execInheritanceFlitArrival chan prio s
  | .stageSnapshot => Sys2Proof.Machine.execStageSnapshot s
  | .snapshotDataArrival chan far => Sys2Proof.Machine.execSnapshotDataArrival chan far s
  | .growthCreditArrival chan prod => Sys2Proof.Machine.execGrowthCreditArrival chan prod s
  | .cueSlotFire pid slot => Sys2Proof.Machine.execCueSlotFire pid slot s
  | .spadStoreGrant tile pid slice => Sys2Proof.Machine.execSpadStoreGrant tile pid slice s
  | .parityUpdate tile slice => Sys2Proof.Machine.execParityUpdate tile slice s
  | .errorReconstruction tile word => Sys2Proof.Machine.execErrorReconstruction tile word s
  | .sweepStep tile slice => Sys2Proof.Machine.execSweepStep tile slice s
  | .sweepPromote tile slice => Sys2Proof.Machine.execSweepPromote tile slice s
  | .serverAccess server => Sys2Proof.Machine.execServerAccess server s
  | .refreshScrub server row => Sys2Proof.Machine.execRefreshScrub server row s
  | .walk die => Sys2Proof.Machine.execWalk die s
  | .walkComplete die => Sys2Proof.Machine.execWalkComplete die s
  | .boxOfficeQuery office => Sys2Proof.Machine.execBoxOfficeQuery office s
  | .dispqAnswer pid => Sys2Proof.Machine.execDispqAnswer pid s
  | .engineTransfer pid stream => Sys2Proof.Machine.execEngineTransfer pid stream s
  | .stripFill pid stream => Sys2Proof.Machine.execStripFill pid stream s
  | .stripRelease pid stream => Sys2Proof.Machine.execStripRelease pid stream s
  | .stripWriteback pid stream => Sys2Proof.Machine.execStripWriteback pid stream s
  | .transferComplete pid stream => Sys2Proof.Machine.execTransferComplete pid stream s
  | .transferFault pid stream => Sys2Proof.Machine.execTransferFault pid stream s
  | .faultRecordDeliver tenant => Sys2Proof.Machine.execFaultRecordDeliver tenant s
  | .flitArrival port flit => Sys2Proof.Machine.execFlitArrival port flit s
  | .portDown port => Sys2Proof.Machine.execPortDown port s
  | .bulkBlockArrival port key blk => Sys2Proof.Machine.execBulkBlockArrival port key blk s
  | .circuitTokenArrival pkt => Sys2Proof.Machine.execCircuitTokenArrival pkt s
  | .circuitCreditArrival pkt => Sys2Proof.Machine.execCircuitCreditArrival pkt s
  | .remoteRequest req => Sys2Proof.Machine.execRemoteRequest req s
  | .remoteReply id rep => Sys2Proof.Machine.execRemoteReply id rep s
  | .retryResend id => Sys2Proof.Machine.execRetryResend id s
  | .contextFill ctx => Sys2Proof.Machine.execContextFill ctx s
  | .unreachableTimeout id => Sys2Proof.Machine.execUnreachableTimeout id s
  | .revokeComplete key => Sys2Proof.Machine.execRevokeComplete key s
  | .transferFire pid q => Sys2Proof.Machine.execTransferFire pid q s
  | .xpostPacketAck pid q ack => Sys2Proof.Machine.execXpostPacketAck pid q ack s
  | .messagePacketArrival pkt => Sys2Proof.Machine.execMessagePacketArrival pkt s
  | .collectiveStart pid => Sys2Proof.Machine.execCollectiveStart pid s
  | .digestExchange pid msg => Sys2Proof.Machine.execDigestExchange pid msg s
  | .collFailureMarker pid n cause => Sys2Proof.Machine.execCollFailureMarker pid n cause s
  | .relayChunk pid msg => Sys2Proof.Machine.execRelayChunk pid msg s
  | .collectiveComplete pid => Sys2Proof.Machine.execCollectiveComplete pid s
  | .inletWrite fn off bytes poison => Sys2Proof.Machine.execInletWrite fn off bytes poison s
  | .outletRead fn off len => Sys2Proof.Machine.execOutletRead fn off len s
  | .windowRead fn off len => Sys2Proof.Machine.execWindowRead fn off len s
  | .windowWrite fn off bytes poison => Sys2Proof.Machine.execWindowWrite fn off bytes poison s
  | .msixTableWrite fn off bytes => Sys2Proof.Machine.execMsixTableWrite fn off bytes s
  | .tenantCreate fn => Sys2Proof.Machine.execTenantCreate fn s
  | .tenantQuota fn => Sys2Proof.Machine.execTenantQuota fn s
  | .tenantDestroy fn => Sys2Proof.Machine.execTenantDestroy fn s
  | .topoSet fn => Sys2Proof.Machine.execTopoSet fn s
  | .cueSync fn => Sys2Proof.Machine.execCueSync fn s
  | .healthReadCec fn => Sys2Proof.Machine.execHealthReadCec fn s
  | .healthReadServer fn => Sys2Proof.Machine.execHealthReadServer fn s
  | .healthSetThreshold fn => Sys2Proof.Machine.execHealthSetThreshold fn s
  | .healthClear fn => Sys2Proof.Machine.execHealthClear fn s
  | .bankRetire fn => Sys2Proof.Machine.execBankRetire fn s
  | .snapshot fn => Sys2Proof.Machine.execSnapshot fn s
  | .moduleReset fn => Sys2Proof.Machine.execModuleReset fn s
  | .attest fn => Sys2Proof.Machine.execAttest fn s
  | .netCreate fn => Sys2Proof.Machine.execNetCreate fn s
  | .netStart fn => Sys2Proof.Machine.execNetStart fn s
  | .netKill fn => Sys2Proof.Machine.execNetKill fn s
  | .netHold fn => Sys2Proof.Machine.execNetHold fn s
  | .netPreempt fn => Sys2Proof.Machine.execNetPreempt fn s
  | .cueDeadlineCapture net => Sys2Proof.Machine.execCueDeadlineCapture net s
  | .netResume fn => Sys2Proof.Machine.execNetResume fn s
  | .netStatus fn => Sys2Proof.Machine.execNetStatus fn s
  | .chanRebind fn => Sys2Proof.Machine.execChanRebind fn s
  | .chanHost fn => Sys2Proof.Machine.execChanHost fn s
  | .resvServer fn => Sys2Proof.Machine.execResvServer fn s
  | .mapAlloc fn => Sys2Proof.Machine.execMapAlloc fn s
  | .mapFree fn => Sys2Proof.Machine.execMapFree fn s
  | .mapRemote fn => Sys2Proof.Machine.execMapRemote fn s
  | .mapSync fn => Sys2Proof.Machine.execMapSync fn s
  | .regCreate fn => Sys2Proof.Machine.execRegCreate fn s
  | .regRevoke fn => Sys2Proof.Machine.execRegRevoke fn s
  | .regImport fn => Sys2Proof.Machine.execRegImport fn s
  | .windowSet fn => Sys2Proof.Machine.execWindowSet fn s
  | .collBind fn => Sys2Proof.Machine.execCollBind fn s
  | .powerGood => Sys2Proof.Machine.execPowerGood s
  | .powerLoss => Sys2Proof.Machine.execPowerLoss s
  | .portAReset => Sys2Proof.Machine.execPortAReset s
  | .portBReset => Sys2Proof.Machine.execPortBReset s
  | .functionReset fn => Sys2Proof.Machine.execFunctionReset fn s
  | .thermalHot => Sys2Proof.Machine.execThermalHot s
  | .thermalHold => Sys2Proof.Machine.execThermalHold s
  | .thermalResume => Sys2Proof.Machine.execThermalResume s
  | .thermalShutdown => Sys2Proof.Machine.execThermalShutdown s
  | .scratchpadLoadGrant pid => Sys2Proof.Machine.execScratchpadLoadGrant pid s
  | .contextSpill ctx => Sys2Proof.Machine.execContextSpill ctx s
  | .configurationRequest fn => Sys2Proof.Machine.execConfigurationRequest fn s

end Sys2Proof.Machine
end

