-- ==== Sys2Proof/Machine/Issue.lean ====
section
/-!
DEFINITION. The scalar issue of a tile: the turn of a slot, the fetch, the landing check, decode, the signature of the
block, and the resumption of a parked word (R53, R60, R111, R114, R119, R190, R256, R416).
-/

namespace Sys2Proof.Machine

/-! ## Signatures (R416) -/

/-- A word with the major opcode of SIG (R61, R415). -/
def isSigWord (w : SWord) : Bool := w >>> 26 == 0x1C

/-- A branch or jump: the word after it is a landing. -/
def lands (i : Instr) : Bool :=
  match i with
  | .beq _ _ _ | .bne _ _ _ | .blt _ _ _ | .bge _ _ _ | .bltu _ _ _ | .bgeu _ _ _ | .jal _ _ | .jalr _ _ _ => true
  | _ => false

/-- A word that ends a block. -/
def endsBlock (i : Instr) : Bool :=
  match i with
  | .eret | .retire => true
  | i => lands i

/-- The signature state after a word, and whether the block it ends matches. -/
def SigState.word (g : SigState) (i : Instr) (w : SWord) (pc : Word) : SigState × Bool :=
  match i with
  | .sig x => ({ want := x, crc := 0xFFFF, start := pc, opened := true, landing := false }, !g.opened || g.crc == g.want)
  | i =>
    let crc := crcBytes g.crc (leBytes 4 w.toNat)
    if endsBlock i then ({ g with crc, opened := false, landing := lands i }, crc == g.want)
    else ({ g with crc, landing := false }, true)

/-! ## The turn of a slot (R111) -/

/-- The process in a slot of a tile. -/
def State.inSlot (s : State) (tile slot : Nat) : Option (Nat × Proc) :=
  s.procs.find? (fun x => x.2.tile == tile && x.2.slot == slot && x.2.inSlot)

/-- The process issues at its turn: Ready in a running network, or service code; one that a capture or kill waits for
only to complete a word whose reply has come (R44, R111, R115). -/
def State.issues (s : State) (p : Proc) : Bool :=
  p.st == .ready && (p.priv || (s.netRuns p && (!p.frozen || (p.woken && p.replied))))

/-- A tile with a failed slice (R256) (DEDUCED, log 44). -/
def Tile.hasFailed (t : Tile) : Bool :=
  t.slices.toList.any (fun x => match x.st with
    | .failed _ => true
    | _ => false)

/-- The turn traps the process for its tile's failed slice: Ready, and not about to complete a word whose reply has
come, or parked on something else than a memory reply (R256) (DEDUCED, log 44). -/
def State.failsWith (s : State) (p : Proc) : Bool :=
  (s.tile p.tile).hasFailed && !p.priv && !p.frozen && (match p.st with
    | .ready => !(p.woken && p.replied)
    | .parked r => r != .memoryReply
    | _ => false)

/-- The current process raises a cause in the fetch, decode or signature check of the word at its PC: nothing of the
word has happened (R119, R416). -/
def State.refuseWord (s : State) (p : Proc) (cause : Cause) (addr info : Word) : Res :=
  .next ((s.clearDenied p.tile).trapCur p cause addr info)

/-- A decoded word of the current process, with its signature state known: it waits for the registers it touches, else
executes (R113, R190). -/
def State.runWord (s : State) (p : Proc) (i : Instr) : Res :=
  if p.touchesPending i then .next (s.parkCur p .vectorDrain i) else exec i (s.setCur p)

/-- A fetched word of the current process: landing check, decode, end of block, execution (R416). -/
def State.issueWord (s : State) (p : Proc) (w : SWord) : Res :=
  if p.sigctl && p.sig.landing && !isSigWord w then s.refuseWord p 0x11 p.pc 0
  else match decodeScalar p.priv w with
    | .error c => s.refuseWord p c 0 0
    | .ok i =>
      if p.sigctl then
        let (g, ok) := p.sig.word i w p.pc
        if ok then s.runWord { p with sig := g } i else s.refuseWord p 0x10 p.sig.start 0
      else s.runWord p i

/-- The current process's next word, fetched at its PC, once its page is known (R53, R119, R314, R420). -/
def State.fetchIssue (s : State) (p0 : Proc) : Res :=
  let p := { p0 with sigOld := p0.sig, park := none, woken := false }
  if p.pc.toNat % 4 ≠ 0 then s.refuseWord p 0x08 p.pc 0
  else match s.unknown p [p.pc] with
  | a :: l => .next (s.want p (a :: l))
  | [] =>
    let s := s.touchFetch p p.pc
    match s.fetchScalar p p.pc with
    | .error v => s.refuseWord p v.cause v.addr v.info
    | .ok w => s.issueWord p w

/-- A process issues: its parked word, whose wait is over, or the word at its PC (R114). -/
def State.issueProc (s0 : State) (pid : Nat) (p : Proc) : Res :=
  let s := { s0 with cur := pid }
  match p.woken, p.park with
  | true, some k =>
    exec k.instr (s.setCur { p with sigOld := p.sig, sig := k.sigAfter, park := none, woken := false })
  | _, _ => s.fetchIssue p

/-- The tile's cycle counter goes on (R111) (DEDUCED, log 5). -/
def Tile.tick (t : Tile) : Tile := { t with cycle := t.cycle + 1 }

/-- The counter of a tile goes on after what its turn has done. -/
def bump (tile : Nat) (r : Res) : Res :=
  match r with
  | .next s => .next (s.modTile tile Tile.tick)
  | .fault e => .fault e
  | .refused e => .refused e

/-- One cycle of a tile's scalar core: slot c mod 8 issues a word or a bubble (R111) (DEDUCED, log 5). -/
def State.issue (s : State) (tile : Nat) : Res :=
  bump tile (match s.inSlot tile ((s.tile tile).cycle % 8) with
    | none => .next s
    | some (pid, p) =>
      if s.failsWith p then
        .next (s.takeTrap pid { cause := 0x43, origin := 5, pc := p.trapPc, addr := 0, elem := 0, info := 0 })
      else if s.issues p then s.issueProc pid p
      else .next s)

end Sys2Proof.Machine
end

