-- ==== Sys2Proof/Machine/Turns.lean ====
section
/-!
DEFINITION. The turns of the machine: what each does, and which the machine itself may take next. Timing is left open:
any turn whose condition holds may come next (R11, R111, R114, R298-R300, R377-R379, R389, R455). What only the world
outside can bring comes by the agenda: host accesses, arrivals from other packages, power, resets and temperature.
-/

namespace Sys2Proof.Machine

/-! ## Turns that are no instruction -/

/-- The request at a place of the mesh may arrive: nothing its source sent before it to the same server is still on
its way, and the server's queue has room (R11, R300) (DEDUCED, log 43). -/
def State.mayArrive (s : State) (n : Nat) (r : Req) : Bool :=
  !(s.flight.take n).any (fun x => s.sameAgent x.src r.src && serverOf x.pa == serverOf r.pa)
    && decide ((s.queued.filter (fun x => serverOf x.pa == serverOf r.pa)).length < 128)

/-- A request arrives at its server, which ranks it by its arrival (R300). -/
def State.deliver (s : State) (n : Nat) : State :=
  match s.flight[n]? with
  | none => s
  | some r =>
    if s.mayArrive n r then
      { s with flight := s.flight.eraseIdx n, queued := s.queued ++ [{ r with age := s.reqAge }], reqAge := s.reqAge + 1 }
    else s

/-- A slot's service code begins at `entry`. -/
def Proc.enterService (p : Proc) (entry : Word) : Proc :=
  { p with priv := true, st := .ready, park := none, woken := false, pend := none, record := [], pc := entry, sigctl := false
           frozen := false }

/-- Service code installed in the slot of a process: captured first, as a pre-emption captures it, its context is kept and
the slot runs privileged code from `entry` (R117, R411) (DEDUCED, log 13). -/
def State.service (s : State) (pid : Nat) (entry : Word) : State :=
  if !(s.proc? pid).any (·.active) || !s.captureReady pid then s
  else
    let was := (s.proc? pid).bind (fun p => s.savedPark pid p)
    let s := s.stopAll pid
    match s.proc? pid with
    | none => s
    | some p => { s with contexts := mset s.contexts pid (p.context was), procs := mset s.procs pid (p.enterService entry) }

/-- What service code in a slot that no process is in runs as: none of a tile's resources is its own. -/
def serviceDesc : Desc :=
  { entry := 0, lproc := 0, lx := 0, ly := 0, ldie := 0, prio := 0, vregs := 0, bufs := 0, rows := 0, accs := 0
    sigchk := false, encore := false, fport := 0, fpen := false, evbase := 0, evcnt := 0, spbase := 0, spsize := 0, arg := 0 }

/-- Service code installed in the lowest free slot of a tile (R117) (DEDUCED, log 13). -/
def State.serviceFree (s : State) (tile : Nat) (entry : Word) : State :=
  if 8 ≤ ((s.onTile tile []).filter (fun x => x.2.inSlot)).length then s
  else
    let tenant := (s.tile tile).owner.getD 0
    let p := mkProc tenant (netKey tenant 255) serviceDesc (tile / 96) tile (s.freeSlot tile) false (Vector.replicate 4 (XQueue.init 0))
    s.setProc (mnext s.procs) (p.enterService entry)

/-- A word of a Pre-empted process's saved context becomes poisoned (R412, R420). -/
def State.ctxError (s : State) (pid : Nat) : State :=
  s.modProc pid (fun p => match p.st with
    | .preempted _ => { p with ctxLost := true }
    | _ => p)

/-- An event that the arrival of a packet is (R423). -/
def isArrival (i : Instr) : Bool :=
  match i with
  | .inheritanceFlitArrival _ _ | .snapshotDataArrival _ _ | .circuitTokenArrival _ | .circuitCreditArrival _
  | .remoteRequest _ | .remoteReply _ _ | .xpostPacketAck _ _ _ | .messagePacketArrival _ | .digestExchange _ _
  | .collFailureMarker _ _ _ | .relayChunk _ _ => true
  | _ => false

/-- A packet that has arrived whole is taken for what its bytes mean (R423) (DESIGN CHOICE, log 90). -/
def State.takePacket (s : State) (n : Nat) : Res :=
  match s.inbox[n]? with
  | none => .next s
  | some b =>
    let s := { s with inbox := s.inbox.eraseIdx n }
    match Config.packetEvent b with
    | none => .next s
    | some i => if isArrival i then exec i s else .next s

/-- What a turn does (DEDUCED, log 6) (DEDUCED, log 7). -/
def State.performTurn (s : State) (t : Turn) : Res :=
  match t with
  | .issue tile => s.issue tile
  | .event i => exec i s
  | .elapse ns => .next { s with cue := s.cue + ns }
  | .deliver n => .next (s.deliver n)
  | .service pid entry => .next (s.service pid entry)
  | .serviceFree tile entry => .next (s.serviceFree tile entry)
  | .ctxError pid => .next (s.ctxError pid)
  | .packet n => s.takePacket n
  | .bulkSend => .next s.bulkSend
  | .bulkNak block => .next (s.bulkNak block)
  | .pmbox tile k x => .next (s.modTile tile (fun t => t.pmboxPut k.toNat x (t.cycle + 8)))
  | .spadError tile key lost => .next (s.modTile tile (fun t => { t with errors := mset t.errors key lost }))
  | .memError half lost => .next { s with memErrors := mset s.memErrors half lost }
  | .laneError pid x => .next { s with strike := some (pid, x) }
  | .rebound pid pkg e => .next (s.rebindIn pid pkg e)
  | .nak p retry => .next (s.nakBack p retry)

/-! ## Turns the machine may take, each as what it does -/

/-- The clock: a boundary that has been reached, else one nanosecond (DEDUCED, log 73). -/
def State.clockTurns (s : State) : List (State → Res) :=
  if s.frame < s.cue / 1024 then [execCueFrameBoundary]
  else if s.snapTime < s.cue / 16384 then [execStageSnapshot]
  else [fun s => .next { s with cue := s.cue + 1 }]

/-- Turns of a process's scalar word and of its tokens, cue slots and box offices. -/
def Proc.scalarTurns (pid : Nat) (p : Proc) : List (State → Res) :=
  (match p.st with
    | .parked _ => [execParkedWake pid]
    | _ => [])
  ++ (match p.pend with
    | some (.sent _) => [execMemoryReply pid]
    | some .spad => [execScratchpadLoadGrant pid]
    | _ => [])
  ++ (if p.launches.isEmpty then [] else [execTokenLaunch pid])
  ++ ([0, 1, 2, 3].filter (fun k => (vget p.cue k none).isSome || !p.cueWait.isEmpty)).map
      (fun k => execCueSlotFire pid (BitVec.ofNat 2 k))
  ++ (if p.queries.isEmpty then [] else [execDispqAnswer pid])

/-- Turns of a process's vector work. -/
def Proc.vectorTurns (pid : Nat) (p : Proc) : List (State → Res) :=
  p.convoys.flatMap (fun c => [execConvoyRetire pid c.id, execVectorMemoryReply pid c.id])
  ++ (if p.convoys.isEmpty then [] else [execMringRoundEnd pid 0, execMringRoundEnd pid 1])
  ++ (if p.queue.isEmpty then [] else [execLoopRegister pid])
  ++ p.tasks.flatMap (fun t => [execIterationStart pid t.id, execIterationRetire pid t.id])

/-- Turns of a process's stream and relay engines. -/
def Proc.engineTurns (pid : Nat) (p : Proc) : List (State → Res) :=
  ((List.range 8).filter (fun j => (vget p.streams j StreamCtx.init) != StreamCtx.init || p.closing.any (fun x => x.1 == j))).flatMap (fun j =>
    let k := BitVec.ofNat 3 j
    [execEngineTransfer pid k, execStripFill pid k, execStripRelease pid k, execStripWriteback pid k, execTransferComplete pid k,
      execTransferFault pid k])
  ++ ([0, 1, 2, 3].filter (fun q => !(p.queueAt q).posts.isEmpty)).map (fun q => execTransferFire pid (BitVec.ofNat 2 q))
  ++ (if p.colls.isEmpty then [] else [execCollectiveStart pid, execCollectiveComplete pid])

/-- Turns of a tile: issue, the vector sequencer and the matrix unit, FIFOs, parity, errors and sweeps. -/
def Tile.turns (n : Nat) (t : Tile) : List (State → Res) :=
  [fun s => s.issue n, execConvoyStart n]
  ++ (if t.matrix.isEmpty then [] else [execMatrixMemberStart n, execMatrixConvoyRetire n])
  ++ t.fifos.map (fun f => execSpadStoreGrant n (f.1 / 4) (BitVec.ofNat 2 f.1))
  ++ t.errors.filterMap (fun e => if e.1 < 262144 ∧ e.2 then some (execErrorReconstruction n e.1) else none)
  ++ [0, 1, 2, 3].flatMap (fun k =>
      let x := t.slice k
      (if x.stale.isEmpty then [] else [execParityUpdate n (BitVec.ofNat 2 k)])
      ++ (match x.st with
        | .sweeping _ _ => [execSweepStep n (BitVec.ofNat 2 k), execSweepPromote n (BitVec.ofNat 2 k)]
        | _ => []))

/-- Turns of a channel. -/
def Chan.turns (c : Nat) (x : Chan) : List (State → Res) :=
  x.prods.zipIdx.flatMap (fun d =>
    (if d.1.flight.isEmpty then [] else [execTokenArrival c d.2])
    ++ (if d.1.returning = 0 then [] else [execCreditArrival c d.2])
    ++ (if d.1.growing = 0 then [] else [execGrowthCreditArrival c d.2]))
  ++ (if x.spill.isEmpty then [] else [execSpillRefill c])

/-- The event that performs a command, by its code (R452). -/
def commandEvents (op fn : Nat) : List (State → Res) :=
  match op with
  | 0x01 => [execTenantCreate fn]
  | 0x02 => [execTenantQuota fn]
  | 0x03 => [execTenantDestroy fn]
  | 0x04 => [execTopoSet fn]
  | 0x05 => [execCueSync fn]
  | 0x06 => [execHealthReadCec fn, execHealthReadServer fn, execHealthSetThreshold fn, execHealthClear fn]
  | 0x07 => [execBankRetire fn]
  | 0x08 => [execSnapshot fn]
  | 0x09 => [execModuleReset fn]
  | 0x0A => [execAttest fn]
  | 0x10 => [execNetCreate fn]
  | 0x11 => [execNetStart fn]
  | 0x12 => [execNetKill fn]
  | 0x13 => [execNetHold fn]
  | 0x14 => [execNetPreempt fn]
  | 0x15 => [execNetResume fn]
  | 0x16 => [execNetStatus fn]
  | 0x17 => [execChanRebind fn]
  | 0x18 => [execChanHost fn]
  | 0x19 => [execResvServer fn]
  | 0x1A => [execMapAlloc fn]
  | 0x1B => [execMapFree fn]
  | 0x1C => [execMapRemote fn]
  | 0x1D => [execMapSync fn]
  | 0x1E => [execRegCreate fn]
  | 0x1F => [execRegRevoke fn]
  | 0x20 => [execRegImport fn]
  | 0x21 => [execWindowSet fn]
  | 0x22 => [execCollBind fn]
  | _ => []

/-- Turns of a function: the command it has in progress or would begin. -/
def Fn.turns (n : Nat) (f : Fn) : List (State → Res) :=
  (if f.reads.isEmpty && f.posted.isEmpty then [] else [fun s => .next (s.hostReply n)])
  ++ match f.busy with
  | some b => commandEvents (headerOp b.header) n
  | none => match f.framed with
    | .command h _ => commandEvents (headerOp h) n
    | _ => []

/-- Turns of the memory servers, walk units and box offices. -/
def State.memoryTurns (s : State) : List (State → Res) :=
  (List.range s.flight.length).map (fun n s => .next (s.deliver n))
  ++ s.queued.map (fun r => execServerAccess (serverOf r.pa))
  ++ (List.range 256).map (fun k => execRefreshScrub k ((s.server k).refreshed % serverRows))
  ++ (List.range 4).flatMap (fun d =>
      if (vget s.dies d Die.init).walks.isEmpty then [] else [execWalk d, execWalkComplete d])
  ++ ((List.range 32).filter (fun k => !(vget s.offices k Office.init).waiting.isEmpty)).map
      (fun k => execBoxOfficeQuery k)

/-- Turns of Viaduct that this package takes by itself. -/
def State.viaductTurns (s : State) : List (State → Res) :=
  s.remotes.flatMap (fun x => [execRetryResend x.1, execUnreachableTimeout x.1])
  ++ (s.regs.filter (fun x => x.2.revoking)).map (fun x => execRevokeComplete (BitVec.ofNat 12 x.1))
  ++ (if s.resends.isEmpty then [] else [fun s => .next s.resend])
  ++ (List.range s.inbox.length).map (fun n (s : State) => s.takePacket n)
  ++ (if s.bulk.isSome then [fun s => .next s.bulkSend] else [])
  ++ (List.range s.contextList.length).map execContextSpill
  ++ (List.range s.spilled.length).map execContextFill

/-- Turns of networks and tenants: rings, deadlines, fault records. -/
def State.netTurns (s : State) : List (State → Res) :=
  (List.range s.rings.length).flatMap (fun r => [execMringRoundBegin r 0, execMringRoundBegin r 1])
  ++ (s.nets.filter (fun n => n.2.deadline.isSome)).map (fun n => execCueDeadlineCapture n.1)
  ++ (s.tenants.filter (fun t => !t.2.faultq.isEmpty)).map (fun t => execFaultRecordDeliver t.1)

/-- The turns the machine may take by itself: none without power, boot alone before READY (R4, R455) (DESIGN
CHOICE, log 4). -/
def State.turns (s : State) : List (State → Res) :=
  if !s.powered then []
  else if !s.ready then [execPowerGood]
  else
    s.clockTurns
    ++ (s.procs.flatMap (fun x => x.2.scalarTurns x.1 ++ x.2.vectorTurns x.1 ++ x.2.engineTurns x.1))
    ++ s.tiles.flatMap (fun t => t.2.turns t.1)
    ++ (s.chans.flatMap (fun c => c.2.turns c.1))
    ++ s.memoryTurns ++ (s.viaductTurns ++ s.netTurns ++ s.fns.flatMap (fun f => f.2.turns f.1))

/-- The turn is POWER_GOOD, all that an unpowered module answers to (R4). -/
def Turn.powersOn (t : Turn) : Bool := t == .event .powerGood

/-- One step: the first turn of the agenda, where there is power for it, else one of the turns the machine may take; nothing where there is none
(DESIGN CHOICE, log 4). -/
def State.takeTurn (s : State) : Res :=
  match s.agenda with
  | t :: l => if s.powered || t.powersOn then { s with agenda := l }.performTurn t else .next { s with agenda := l }
  | [] =>
    let ts := s.turns
    let (k, s') := s.pick ts.length
    match ts[k]? with
    | none => .next s
    | some f => f s'

end Sys2Proof.Machine
end

