-- ==== Sys2Proof/Machine/Place.lean ====
section
/-!
DEFINITION. An instruction placed where the next step fetches it: what stands for the load of a program by the host
(R34, R40, R83, R453). A process on slot 0 of tile 0 of a running network of tenant 0 has the word at its PC, or as the
only word of a vector block, in a page of its own.
-/

namespace Sys2Proof.Machine

/-- The address of the placed word: the first of device space (R306). -/
def placeAddr : Word := 0x0008000000000000

/-- The descriptor of the placed process: 24 registers, 8 buffer groups, 64 rows, 4 accumulators, 4 KiB of scratchpad,
every event bit, no signature checking (R28). -/
def placeDesc : Desc :=
  { entry := placeAddr, lproc := 0, lx := 0, ly := 0, ldie := 0, prio := 0, vregs := 6, bufs := 8, rows := 64, accs := 4
    sigchk := false, encore := false, fport := 0, fpen := false, evbase := 0, evcnt := 255, spbase := 0, spsize := 1
    arg := 0 }

/-- The placed process, started (R40) (DEDUCED, log 3). -/
def placeProc : Proc := { mkProc 0 0 placeDesc 0 0 0 true (Vector.replicate 4 (XQueue.init 0)) with st := .ready }

/-- The placed process with the address as the only entry of its block queue. -/
def placeVector : Proc := placeProc.enqueue .block placeAddr []

/-- Its network. -/
def placeNet : Net :=
  { tenant := 0, number := 0, gen := 1, st := .running, thermal := false, procs := [0], chans := [], offices := []
    rings := [], signature := 0, coll := none, discarded := 0, left := 0, killed := false, deadline := none, tiles := [0] }

/-- Its tenant. -/
def placeTenant : Tenant :=
  { fn := 0, quota := { maxproc := 1, maxtiles := 1, maxchan := 0, spill := 0, resv := 0, maxnets := 1, priomax := 0 }
    root := 4096, tables := [4096], gens := [(0, 1)], faultq := [], reserve := [] }

/-- Its tile: the page of the word, executable, in the TLB. -/
def placeTile : Tile :=
  { Tile.init with
    owner := some 0
    tlb := [{ vpage := placeAddr.toNat, leaf := .page 4096 true false true (.phys 0) }] }

/-- The bytes placed: the instruction's, then zeros; behind a vector word a VSTOP. -/
def placeBytes (nbits w : Nat) : List Byte :=
  if nbits = 64 then leBytes 8 w ++ leBytes 8 (2 ^ 56) else leBytes (nbits / 8) w

/-- A state with an instruction placed, the turn that runs it as the whole agenda, and the first outcome for every choice
of that turn (DEDUCED, log 3). -/
def State.placeWord (s : State) (nbits w : Nat) : State :=
  let b := placeBytes nbits w
  { s with
    procs := mset s.procs 0 (if nbits = 64 then placeVector else placeProc)
    nets := mset s.nets 0 placeNet
    tenants := mset s.tenants 0 placeTenant
    tiles := mset s.tiles 0 placeTile
    mem := memPutBytes s.mem 0 b
    memPoison := s.memPoison.filter (fun k => decide (2 ≤ k))
    memErrors := mdel s.memErrors 0
    usedPages := mset (mset s.usedPages 0 4096) 4096 4096
    picks := [0, 0, 0, 0]
    agenda := [if nbits = 64 then .event (.convoyStart 0) else .issue 0] }

end Sys2Proof.Machine
end

