-- ==== Sys2Proof/Safety.lean ====
section
/-!
DEFINITION. What counts as a safe run, and the terms the statements use: a word that is done, what may change, and the
states whose parts are in their one form.
-/

namespace Sys2Proof.Machine

/-- The word of the current process `p` is done: its result is in `a`, the next word follows, and nothing else in the
state has changed. -/
def State.wrote (s : State) (p : Proc) (a : GReg) (v : Word) : Res :=
  .next (s.setProc s.cur { p.wr a v with pc := p.pc + 4 })

/-- The same with floating-point flags ORed into VFLAGS (R98). -/
def State.wroteFlags (s : State) (p : Proc) (a : GReg) (v : Word) (f : Flags) : Res :=
  .next (s.setProc s.cur { p.wr a v with pc := p.pc + 4, vflags := p.vflags.or f })

/-- The word of the current process is done: the process is now `q`, the next word follows, and nothing else in the
state has changed. -/
def State.did (s : State) (q : Proc) : Res := .next (s.setProc s.cur { q with pc := q.pc + 4 })

/-- Tenant `k`'s fault record gains tokens behind those queued, where it has room for them (R403). -/
def State.recorded (s : State) (k : Nat) (toks : List Word) : State :=
  s.enterToks k (toks.map (fun w => { word := w, discard := none }))

/-- The process as TakeTrap leaves it (R395): Trapped, the trap registers written, its vector stream stopped (R396). -/
def Proc.trapped (p : Proc) (cause : Cause) (origin : Nat) (pc addr elem info : Word) : Proc :=
  { p.stopVector with
    st := .trapped, park := none, woken := false, pend := none, record := []
    trap := { epc := pc &&& 0x000FFFFFFFFFFFFF, tcause := BitVec.ofNat 64 (origin * 256 + cause.toNat), taddr := addr
              telem := elem &&& 0xFFFFFFFF, tinfo := info } }

/-- The word of the current process raises a cause of the scalar stream: nothing of the word has happened, its
signature state is as before it, and the process is Trapped at the word (R119, R395, R416). -/
def State.raised (s : State) (p : Proc) (cause : Cause) (addr info : Word) (t : State) : Prop :=
  t.proc? s.cur = some ({ p with sig := p.sigOld }.trapped cause 0 p.pc addr 0 info)
    ∧ (∀ k, k ≠ s.cur → t.proc? k = s.proc? k) ∧ t.mem = s.mem ∧ t.tiles = s.tiles ∧ t.chans = s.chans

/-- Two states differ in no process but one, and in no memory, tile, channel, request, server, host or fuse. -/
def State.onlyProc (s t : State) (pid : Nat) : Prop := ∃ q, t = s.setProc pid q

/-- Device memory is in its canonical form. -/
def State.memOk (s : State) : Prop := s.mem.wf = true

/-- The fuses of two states: no fused bank is lost, and the boot count does not fall (R4, R257, R455). -/
def Fuses.grown (a b : Fuses) : Prop := a.bootCount ≤ b.bootCount ∧ ∀ k ∈ a.banks, k ∈ b.banks

/-- Nothing holds a word of the process back: it names no register a vector word still owes (R190). -/
def Proc.clear (p : Proc) : Prop := p.pending = []

/-- The process has no vector work and no scratchpad store under way. -/
def State.quiet (s : State) (p : Proc) : Prop :=
  p.pending = [] ∧ p.queue = [] ∧ p.tasks = [] ∧ p.convoys = [] ∧ (s.tile p.tile).pendingStores s.cur = []
    ∧ p.queries = [] ∧ p.pend = none

/-- No word of the tile's scratchpad carries an error, and no bank of it is being retired or has been. -/
def Tile.sound (t : Tile) : Prop := t.errors = [] ∧ ∀ k < 4, (t.slice k).st = .normal

/-- No process but one differs, nor device memory. -/
def State.onlyAt (s t : State) (pid : Nat) : Prop := (∀ k, k ≠ pid → t.proc? k = s.proc? k) ∧ t.mem = s.mem

/-! ## A vector word alone (R189, R193, R195) -/

/-- What a word of the process reads besides its registers, with a snapshot taken now. -/
def Proc.wordCtx (p : Proc) : VCtx := p.ctxOf (p.newConvoy 0 false 0 [] p.snapNow)

/-- The vector word can start as a convoy of its own: it is well formed, names registers that exist, and meets no cause
that stops it at its start. -/
def State.starts (s : State) (p : Proc) (i : Instr) : Prop :=
  s.proc? s.cur = some p ∧ i.wf = true ∧ (∀ c ∈ p.convoys, c.id ≠ p.nextId) ∧ beyondCount p.geom.nregs i = false
    ∧ s.startCause s.cur p p.snapNow [i] = none ∧ s.strike = none

/-- The word has run whole: the process is `q` but for the finished convoy, which has yet to retire and then writes the
general registers of `gw`; nothing else in the state has changed. -/
def State.ran (s : State) (p : Proc) (i : Instr) (q : Proc) (gw : List (Nat × Word)) : Prop :=
  ∃ cv : Convoy, cv.id = p.nextId ∧ cv.members = [i] ∧ cv.finished = true ∧ cv.stopped = false ∧ cv.gw = gw
    ∧ exec i s = .next (s.setProc s.cur { q with convoys := p.convoys ++ [cv], nextId := p.nextId + 1 })

/-- The word stops with cause 0x40 at canonical group `g` as a vector trap (R208, R237, R397, R399). -/
def State.stopsPoisoned (s : State) (i : Instr) (g : Nat) (info : Word) : Prop :=
  ∃ t q, exec i s = .next t ∧ t.proc? s.cur = some q ∧ q.st = .trapped ∧ q.trap.tcause = 0x140
    ∧ q.trap.telem = BitVec.ofNat 64 (64 * g) &&& 0xFFFFFFFF ∧ q.trap.tinfo = info ∧ t.mem = s.mem

/-- Two processes differ in vector rows, their poison and VFLAGS alone. -/
def Proc.sameElse (p q : Proc) : Prop := { q with rows := p.rows, rowPoison := p.rowPoison, vflags := p.vflags } = p

/-- Two processes differ in masks and VFLAGS alone. -/
def Proc.sameButMasks (p q : Proc) : Prop := { q with masks := p.masks, vflags := p.vflags } = p

/-- Rows outside those from `base` to `base + n - 1` are as they were. -/
def Proc.rowsElse (p q : Proc) (base n : Nat) : Prop :=
  ∀ r, r < base ∨ base + n ≤ r → mgetD q.rows r 0 = mgetD p.rows r 0 ∧ mgetD q.rowPoison r 0 = mgetD p.rowPoison r 0

/-- Of the register of `l` rows from `base`, the elements below `n` of `z` bytes have the value and poison that `f` gives,
those it does not name are as they were, and so is every other row (R195). -/
def Proc.wroteElems (p q : Proc) (base l z n : Nat) (f : Nat → Option (Nat × Bool)) : Prop :=
  p.rowsElse q base l ∧ ∀ e < n, (q.elem base z e, q.elemPsn base z e) = (f e).getD (p.elem base z e, p.elemPsn base z e)

/-- The same of units, slots of `.mx4` keeping a status byte that fits their scale (R91, R226). -/
def Proc.wroteUnits (p q : Proc) (base l : Nat) (t : ETy) (f : Nat → Option (Nat × Bool)) : Prop :=
  p.rowsElse q base l ∧ ∀ u < unitCount t l, q.unit base t u = match f u with
    | none => p.unit base t u
    | some (x, psn) => (if t = .mx4 then putField x 8 8 (if x % 256 = 255 then 0 else 1) else x % 2 ^ etWidth t, psn)

/-- Flags of some elements ORed into VFLAGS (R98). -/
def Proc.flagged (p : Proc) (n : Nat) (on : Nat → Bool) (f : Nat → Flags) : Flags :=
  ((List.range n).filter on).foldl (fun x e => x.or (f e)) p.vflags

/-! ## Commands (R448-R451) -/

/-- A command stands alone in a function's command channel and may begin: the module is ready, no SNAPSHOT is being
taken, a core of the port is free, no command of the port comes before it, none is in progress, and every reply has a
place. -/
def State.asks (s : State) (fn op : Nat) (hd : Word) (a : List Word) : Prop :=
  s.ready = true ∧ s.snapshot = none ∧ s.coresBusy fn < 4 ∧ s.cmdFirst fn = true ∧ (s.fn fn).busy = none ∧ (s.fn fn).replyWait = []
    ∧ (s.fn fn).reply.length < 64 ∧ (s.fn fn).cmdin = promptToken hd 2 :: a.map (fun x => promptToken x 0)
    ∧ hd.toNat / 2 ^ 56 = op ∧ hd.toNat / 2 ^ 48 % 256 = a.length

/-- The reply to a command (R448): OP and SEQ of its header, NET, STATUS, NRES, and the results. -/
def replyOf (hd : Word) (net status : Nat) (res : List Nat) : List Token :=
  replyTokens (BitVec.ofNat 64 (hd.toNat / 2 ^ 56 * 2 ^ 56 + res.length * 2 ^ 48 + net * 2 ^ 40 + status * 2 ^ 32
    + hd.toNat % 2 ^ 32)) (res.map (BitVec.ofNat 64))

/-- NET of a header (R448). -/
def headerNet (hd : Word) : Nat := hd.toNat / 2 ^ 40 % 256

/-- Two states differ at one function in its command and reply channels, its place among those with a command that waits
and its interrupts alone. -/
def State.sameButReply (t u : State) (fn : Nat) : Prop :=
  { u with fns := t.fns, cmdOrder := t.cmdOrder } = t ∧ u.cmdOrder = t.cmdOrder.erase fn ∧ (∀ k, k ≠ fn → u.fn k = t.fn k)
    ∧ { u.fn fn with
        cmdin := (t.fn fn).cmdin, cmdCredits := (t.fn fn).cmdCredits, reply := (t.fn fn).reply
        replyWait := (t.fn fn).replyWait, pba := (t.fn fn).pba, irqs := (t.fn fn).irqs } = t.fn fn

/-- The command of a function of `n` arguments has been taken and answered: its credits are back, and its reply stands
behind the others. -/
def State.replied (s u : State) (fn n : Nat) (reply : List Token) : Prop :=
  (u.fn fn).reply ++ (u.fn fn).replyWait.flatten = (s.fn fn).reply ++ reply ∧ (u.fn fn).cmdin = []
    ∧ (u.fn fn).cmdCredits = (s.fn fn).cmdCredits + n + 1 ∧ (u.fn fn).busy = none

/-- A command of `n` arguments, performed: the state is `t` but for the command and its reply. -/
def State.answers (s : State) (c : Instr) (fn : Nat) (hd : Word) (n status : Nat) (res : List Nat) (t : State) : Prop :=
  ∃ u, exec c s = .next u ∧ s.replied u fn n (replyOf hd (headerNet hd) status res) ∧ t.sameButReply u fn

end Sys2Proof.Machine
end

