-- ==== Sys2Proof/Certificates/Slice0/Obligations.lean ====
section
/-!
DEFINITION. The statements for the provers.
-/

open Sys2Proof Sys2Proof.Machine

/-! ## Words, steps, traps, memory (R11, R53-R68, R111, R190, R239, R302, R303, R395-R398, R404, R416, R420) -/

/-- R54-R68: words written out field by field from the encodings of the spec, and R68's own example, each with the
instruction it stands for; a word of no assigned major or operation, with a class or a mode nothing accepts, or with a
field that must be zero, stands for none. -/
def Obligations.DecodeWords : Prop :=
  let h := fun (et : ETy) => ({ cls := .ex, km := 0, kn := false, dt := false, ch := false, et } : VHdr)
  (∀ x ∈ [(0x04211000, Instr.add 1 1 2), (0x0842FFFF, .addi 2 2 0xFFFF), (0x28A71800, .mul 5 7 3), (0x2C853403, .fma .lg 4 5 6),
      (0x2CC7004C, .fcvtfi .rz 6 7), (0x30434008, .ld .h .relaxed 2 3 8), (0x38A30010, .st .b .relaxed 5 3 0x10),
      (0x6C63FFFC, .jalr 3 3 0xFFFC), (0x8C64007F, .sendc 3 2 0x7F), (0xA4000010, .vfetch 0x10), (0xAC000001, .fenceSv),
      (0xC0020003, .sconf 2 3), (0xE0040002, .evclr 4), (0xF4021801, .xpost 2 3), (0xF0A00003, .rdcue 5), (0x00000001, .sysc),
      (0xF8E00022, .ctlrVflags 7), (0xF8098025, .ctlwSrseed 9)], decodeTableWord 32 x.1 = some x.2)
  ∧ (∀ x ∈ [(0x3345686429800000, Instr.vfma { cls := .tp, km := 2, kn := true, dt := false, ch := true, et := .f32 } 3 4 5 6),
      (0x100008A248000000, .vadd (h .i32) 5 2 9), (0x5000282200000020, .vcvt (h .f32) 1 2 .i32 false .rne),
      (0x6300006110000000, .kand (h .i8) 3 1 2), (0x730024A220000000, .vgathr (h .bf16) 5 2 4), (0x8000088600000000, .vrsum (h .i32) 4 6),
      (0x9000284048000000, .vld (h .f32) .relaxed 2 9 0), (0x9600284548090000, .vldffIndexed (h .f32) .relaxed .w32 2 5 9 0),
      (0xC100204308000000, .mopa (h .f16) 2 3 1), (0x0100000000000000, .vstop)], decodeTableWord 64 x.1 = some x.2)
  ∧ (∀ w ∈ [0x00000000, 0xFFFFFFFF, 0x48000000, 0x04211200, 0x2CC701CC, 0x3043700A], decodeTableWord 32 w = none)
  ∧ ∀ w ∈ [0, 0x0700000000000000, 0xF000000000000000, 0x10C008A248000000, 0x100008A248400000, 0x1000282200000000],
      decodeTableWord 64 w = none

/-- R54-R68: decoding the word of a well-formed instruction gives that instruction back, operands and all. -/
def Obligations.RoundTrip : Prop :=
  ∀ i : Instr, i.wf = true → encode i ≠ .event → decodeWords true (encode i) = .ok i

/-- R54-R68: a word that decodes has one meaning: the instruction is well formed, and the word is its encoding. -/
def Obligations.OneMeaning : Prop :=
  ∀ (priv : Bool) (w : Words) (i : Instr), decodeWords priv w = .ok i → i.wf = true ∧ encode i = w

/-- R53, R111, R113, R114, R190, R416, R420: a turn of a tile executes the word at the PC of the Ready process in the
turn's slot, decoded from the bytes its translation leads to, and the tile's cycle goes on; a word that names a register
which vector work has still to write parks instead; one that decodes to nothing, or ends a block whose signature is
another, raises its cause; a parked word whose wait is over is executed again. R314: a word whose page the tile does not
know waits for the walk of it. -/
def Obligations.StepRunsWord : Prop :=
  ∀ (s : State) (tile pid : Nat) (p : Proc) (rest : List Turn), s.powered = true → s.agenda = .issue tile :: rest →
    s.inSlot tile ((s.tile tile).cycle % 8) = some (pid, p) → p.st = .ready → (p.priv = true ∨ s.netRuns p = true) →
    p.frozen = false → (s.tile p.tile).hasFailed = false →
    let base : State := { s with agenda := rest, cur := pid }
    let q := { p with sigOld := p.sig, park := none, woken := false }
    let raises := fun (c : Cause) (addr : Word) => ∃ t, step s = bump tile (.next t) ∧ ({ base with procs := mset s.procs pid q }).raised q c addr 0 t
    (∀ k, p.woken = true → p.park = some k →
      step s = bump tile (exec k.instr (base.setProc pid { q with sig := k.sigAfter })))
    ∧ (∀ sz r w pa word, p.woken = false → p.pc.toNat % 4 = 0 → inDevice p.pc = true → canonDev p.pc = true →
      tlbFind (s.tile p.tile).tlb p.pc.toNat = some (.page sz r w true (.phys pa)) → s.memErrors = [] → (s.tile p.tile).denied = [] →
      let a := pa + p.pc.toNat % sz
      s.entryAt (a / 8 * 8) = some (leNat (memBytes s.mem (a / 8 * 8) 8)) → sz % 8 = 0 → pa % 8 = 0 →
      word = BitVec.ofNat 32 (leNat (memBytes s.mem a 4)) →
      let g := fun i => p.sig.word i word p.pc
      (p.sigctl = true → p.sig.landing = true → isSigWord word = false → raises 0x11 p.pc)
      ∧ (p.sigctl = false ∨ p.sig.landing = false ∨ isSigWord word = true →
        (∀ c, decodeScalar p.priv word = .error c → raises c 0)
        ∧ ∀ i, decodeScalar p.priv word = .ok i →
          (p.sigctl = false → p.touchesPending i = false → step s = bump tile (exec i (base.setProc pid q)))
          ∧ (p.sigctl = false → p.touchesPending i = true → step s = bump tile (.next (base.parkCur q .vectorDrain i)))
          ∧ (p.sigctl = true → (g i).2 = true → p.touchesPending i = false →
            step s = bump tile (exec i (base.setProc pid { q with sig := (g i).1 })))
          ∧ (p.sigctl = true → (g i).2 = false → raises 0x10 p.sig.start)))
    ∧ (p.woken = false → p.pc.toNat % 4 = 0 → canonDev p.pc = true → (s.tile p.tile).leafOf p.pc.toNat = none →
      step s = bump tile (.next (base.want q [p.pc.toNat])))
    ∧ ∀ (i : Instr) (r : GReg) (e : Nat), r ∈ gregsOf i → r ≠ 0 → (r.toNat, e) ∈ p.pending → p.touchesPending i = true

/-- R395-R399, R404: taking a trap writes the trap registers, stops the vector stream, leaves the process Trapped with its
registers as they were, and enters six tokens in the tenant's fault record; a request of the parked word is kept only for
a trap of another origin. -/
def Obligations.TakeTrap : Prop :=
  ∀ (s : State) (pid : Nat) (p : Proc) (t : TrapInfo) (k : Tenant), s.proc? pid = some p → t.origin < 8 →
    mget s.tenants p.tenant = some k →
    let u := s.takeTrap pid t
    let epc := t.pc &&& 0x000FFFFFFFFFFFFF
    ∃ q, u.proc? pid = some q ∧ q.st = .trapped ∧ q.trap.epc = epc
      ∧ q.trap.tcause = BitVec.ofNat 64 (t.origin * 256 + t.cause.toNat) ∧ q.trap.taddr = t.addr
      ∧ q.trap.telem = t.elem &&& 0xFFFFFFFF ∧ q.trap.tinfo = t.info ∧ q.pc = p.pc ∧ q.g = p.g ∧ q.rows = p.rows ∧ q.masks = p.masks
      ∧ q.acc = p.acc ∧ q.queue = p.queue ∧ q.tasks = p.tasks ∧ q.pending = p.pending ∧ q.vflags = p.vflags ∧ q.ringWait = none
      ∧ q.convoys = p.convoys.map (fun c => { c with stopped := true })
      ∧ (t.origin = 0 → q.park = none ∧ q.pend = none) ∧ (∀ id, t.origin ≠ 0 → p.pend = some (.sent id) → q.park = p.park ∧ q.pend = p.pend)
      ∧ (∀ j, j ≠ pid → u.proc? j = s.proc? j) ∧ u.mem = s.mem ∧ u.tiles = s.tiles ∧ u.chans = s.chans
      ∧ (k.reserve = [] → k.faultq.length + 6 ≤ 4096 → ∃ m, mget u.tenants p.tenant = some m ∧ m.reserve = []
        ∧ m.faultq.map (·.word) = k.faultq.map (·.word) ++ [recordHead 2 t.cause.toNat (s.netNumber p) p.desc.lproc t.origin 5, epc, t.addr,
          t.info, t.elem &&& 0xFFFFFFFF, p.vpcOf])

/-- R239, R302, R303: in device memory without errors a read gives the bytes and the poison of their words, a write the
bytes written and no others, a word written whole taking the poison of its data and any other keeping its own as well; the
one form of memory is kept. A scratchpad address is a slice, bank, row, word and byte, and the lines of a block lie apart.
-/
def Obligations.MemoryReadWrite : Prop :=
  (∀ (s : State) (pa n : Nat) (b : List Byte) (psn : List Bool), s.memErrors = [] →
    s.physRead pa n = (s, memBytes s.mem pa n, s.poisonAt pa n)
    ∧ (psn.length = b.length → let u := s.memWrite pa b psn
      (∀ a, memByte u.mem a = if pa ≤ a ∧ a < pa + b.length then b.getD (a - pa) 0 else memByte s.mem a)
      ∧ (∀ w, u.memPoison.contains w = if pa ≤ 8 * w ∧ 8 * w + 8 ≤ pa + b.length then (List.range 8).any (fun i => psn.getD (8 * w + i - pa) false)
          else s.memPoison.contains w || (List.range 8).any (fun i => decide (pa ≤ 8 * w + i) && psn.getD (8 * w + i - pa) false))
      ∧ (s.memOk → u.memOk) ∧ u.procs = s.procs ∧ u.tiles = s.tiles))
  ∧ ∀ a < 2 ^ 21, let n := a / 64
    a = 2048 * spRow a + 256 * spBank a + 64 * spSlice a + 8 * spWord a + a % 8
    ∧ spSlice a = n % 4 ∧ spBank a = n / 4 % 8 ∧ spRow a = n / 32 ∧ a / 8 = dataWord (spSlice a) (spBank a) (spRow a) (spWord a)
    ∧ ∀ b < 2 ^ 21, (a / 512 = b / 512 → a / 64 ≠ b / 64 → (spSlice a, spBank a) ≠ (spSlice b, spBank b))
      ∧ (a / 2048 = b / 2048 → spRow a = spRow b)

/-- R4, R111, R141, R257, R377, R442: what a module reset leaves: no process, network or tenant, every memory zero, the
cue clock at zero and READY clear; tiles begin at cycle zero with clean scratchpads, and the fuses' bank list is the
machine's own. -/
def Obligations.ResetState : Prop :=
  let s := State.reset
  s.powered = true ∧ s.ready = false ∧ s.hot = false ∧ s.cue = 0 ∧ s.procs = [] ∧ s.nets = [] ∧ s.tenants = [] ∧ s.chans = []
    ∧ s.regs = [] ∧ s.memOk ∧ (∀ a, memByte s.mem a = 0) ∧ (∀ t, (s.tile t).cycle = 0 ∧ (s.tile t).sound ∧ (s.tile t).events = 0
      ∧ ∀ a, memByte (s.tile t).spad a = 0) ∧ ∀ k, (s.server k).correctable = 0 ∧ (s.server k).uncorrectable = 0

/-- R4, R257, R455: no step, whatever the machine does and whatever comes from outside, takes a fused bank back or lets
the boot count fall. -/
def Obligations.FusesNeverShrink : Prop :=
 ∀ s t : State, step s = .next t → Fuses.grown s.fuses t.fuses

/-- R296: device memory stays in its one form, so that equal memories are equal states. -/
def Obligations.MemoryStaysCanonical : Prop :=
 ∀ s t : State, step s = .next t → s.memOk → t.memOk

/-! ## Scalar words (R118-R146) -/

/-- R118, R120, R124: the register-register words and those of one source write their result to ga and change nothing else
but the PC. R118: general register g0 reads as zero and discards writes; a write to another register changes that one
alone. -/
def Obligations.RegisterWords : Prop :=
  (∀ (s : State) (p : Proc) (a b c : GReg), s.proc? s.cur = some p →
     let x := p.rd b
     let y := p.rd c
     let n := y.toNat % 64
     exec (.add a b c) s = s.wrote p a (x + y)
     ∧ exec (.sub a b c) s = s.wrote p a (x - y)
     ∧ exec (.and a b c) s = s.wrote p a (x &&& y)
     ∧ exec (.or a b c) s = s.wrote p a (x ||| y)
     ∧ exec (.xor a b c) s = s.wrote p a (x ^^^ y)
     ∧ exec (.andn a b c) s = s.wrote p a (x &&& ~~~y)
     ∧ exec (.orn a b c) s = s.wrote p a (x ||| ~~~y)
     ∧ exec (.sll a b c) s = s.wrote p a (BitVec.ofNat 64 (x.toNat * 2 ^ n))
     ∧ exec (.srl a b c) s = s.wrote p a (BitVec.ofNat 64 (x.toNat / 2 ^ n))
     ∧ exec (.sra a b c) s = s.wrote p a (BitVec.ofInt 64 (x.toInt / 2 ^ n))
     ∧ exec (.rol a b c) s = s.wrote p a (x <<< n ||| x >>> (64 - n))
     ∧ exec (.ror a b c) s = s.wrote p a (x >>> n ||| x <<< (64 - n))
     ∧ exec (.slt a b c) s = s.wrote p a (if x.toInt < y.toInt then 1 else 0)
     ∧ exec (.sltu a b c) s = s.wrote p a (if x.toNat < y.toNat then 1 else 0)
     ∧ exec (.min a b c) s = s.wrote p a (BitVec.ofInt 64 (min x.toInt y.toInt))
     ∧ exec (.max a b c) s = s.wrote p a (BitVec.ofInt 64 (max x.toInt y.toInt))
     ∧ exec (.minu a b c) s = s.wrote p a (BitVec.ofNat 64 (min x.toNat y.toNat))
     ∧ exec (.maxu a b c) s = s.wrote p a (BitVec.ofNat 64 (max x.toNat y.toNat))
     ∧ (∃ n ≤ 64, exec (.clz a b) s = s.wrote p a (BitVec.ofNat 64 n) ∧ (∀ i, 64 - n ≤ i → x.getLsbD i = false)
       ∧ (n < 64 → x.getLsbD (63 - n) = true))
     ∧ (∃ n ≤ 64, exec (.ctz a b) s = s.wrote p a (BitVec.ofNat 64 n) ∧ (∀ i < n, x.getLsbD i = false)
       ∧ (n < 64 → x.getLsbD n = true))
     ∧ exec (.popc a b) s = s.wrote p a (BitVec.ofNat 64 ((List.range 64).countP (fun i => x.getLsbD i)))
     ∧ (∃ v : Word, exec (.brev a b) s = s.wrote p a v ∧ ∀ i < 64, v.getLsbD i = x.getLsbD (63 - i))
     ∧ (∃ v : Word, exec (.bswap a b) s = s.wrote p a v
       ∧ ∀ i < 8, v.extractLsb' (8 * i) 8 = x.extractLsb' (8 * (7 - i)) 8)
     ∧ exec (.sextb a b) s = s.wrote p a (BitVec.ofInt 64 (x.setWidth 8).toInt)
     ∧ exec (.sexth a b) s = s.wrote p a (BitVec.ofInt 64 (x.setWidth 16).toInt)
     ∧ exec (.sextw a b) s = s.wrote p a (BitVec.ofInt 64 (x.setWidth 32).toInt)
     ∧ exec (.zextw a b) s = s.wrote p a (BitVec.ofNat 64 (x.toNat % 2 ^ 32)))
  ∧ (∀ (p : Proc) (a r : GReg) (x : Word),
       p.rd 0 = 0 ∧ p.wr 0 x = p ∧ (a ≠ 0 → (p.wr a x).rd a = x) ∧ (r ≠ a → (p.wr a x).rd r = p.rd r))

/-- R124: the words of major 0x0A, class EX alone accepted: multiplication, and division toward zero with its corners at
a zero divisor and at -2^63 / -1; REM is what DIV leaves. -/
def Obligations.MultiplyDivide : Prop :=
  (∀ (priv : Bool) (a b c : GReg) (ac : BitVec 2), ∀ x ∈ [(0#9, Instr.mul a b c), (1, .mulh a b c), (2, .mulhu a b c),
      (3, .div a b c), (4, .divu a b c), (5, .rem a b c), (6, .remu a b c)],
     decodeScalar priv (0x0A#6 ++ a ++ b ++ c ++ ac ++ x.1) = if ac = 0 then .ok x.2 else .error 0x04)
  ∧ ∀ (s : State) (p : Proc) (a b c : GReg), s.proc? s.cur = some p →
    let x := p.rd b
    let y := p.rd c
    exec (.mul a b c) s = s.wrote p a (BitVec.ofNat 64 (x.toNat * y.toNat))
    ∧ exec (.mulh a b c) s = s.wrote p a (BitVec.ofInt 64 (x.toInt * y.toInt / 2 ^ 64))
    ∧ exec (.mulhu a b c) s = s.wrote p a (BitVec.ofNat 64 (x.toNat * y.toNat / 2 ^ 64))
    ∧ (∃ q r : Word, exec (.div a b c) s = s.wrote p a q ∧ exec (.rem a b c) s = s.wrote p a r ∧ r = x - y * q
      ∧ (y = 0 → q = 0xFFFFFFFFFFFFFFFF)
      ∧ (y = 0xFFFFFFFFFFFFFFFF → x = 0x8000000000000000 → q = x)
      ∧ (y ≠ 0 → ¬(y = 0xFFFFFFFFFFFFFFFF ∧ x = 0x8000000000000000) → q.toInt = x.toInt.tdiv y.toInt))
    ∧ (∃ q r : Word, exec (.divu a b c) s = s.wrote p a q ∧ exec (.remu a b c) s = s.wrote p a r ∧ r = x - y * q
      ∧ (y = 0 → q = 0xFFFFFFFFFFFFFFFF) ∧ (y ≠ 0 → q.toNat = x.toNat / y.toNat))

/-- R121-R123: the immediate words; LIH replaces sixteen bits of ga and leaves the other 48. -/
def Obligations.ImmediateWords : Prop :=
  ∀ (s : State) (p : Proc) (a b : GReg) (imm : BitVec 16) (n : BitVec 6) (pos : BitVec 2), s.proc? s.cur = some p →
    let x := p.rd b
    exec (.addi a b imm) s = s.wrote p a (BitVec.ofInt 64 (x.toInt + imm.toInt))
    ∧ exec (.andi a b imm) s = s.wrote p a (BitVec.ofNat 64 (x.toNat &&& imm.toNat))
    ∧ exec (.ori a b imm) s = s.wrote p a (BitVec.ofNat 64 (x.toNat ||| imm.toNat))
    ∧ exec (.xori a b imm) s = s.wrote p a (BitVec.ofNat 64 (x.toNat ^^^ imm.toNat))
    ∧ exec (.slti a b imm) s = s.wrote p a (if x.toInt < imm.toInt then 1 else 0)
    ∧ exec (.sltiu a b imm) s = s.wrote p a (if x.toNat < (BitVec.ofInt 64 imm.toInt).toNat then 1 else 0)
    ∧ exec (.slli a b n) s = s.wrote p a (BitVec.ofNat 64 (x.toNat * 2 ^ n.toNat))
    ∧ exec (.srli a b n) s = s.wrote p a (BitVec.ofNat 64 (x.toNat / 2 ^ n.toNat))
    ∧ exec (.srai a b n) s = s.wrote p a (BitVec.ofInt 64 (x.toInt / 2 ^ n.toNat))
    ∧ (∃ v : Word, exec (.lih a pos imm) s = s.wrote p a v ∧ v.extractLsb' (16 * pos.toNat) 16 = imm
      ∧ ∀ i < 64, i / 16 ≠ pos.toNat → v.getLsbD i = (p.rd a).getLsbD i)

/-- R133: the conditional branches. -/
def Obligations.BranchWords : Prop :=
  ∀ (s : State) (p : Proc) (a b : GReg) (d : BitVec 16), s.proc? s.cur = some p →
    let x := p.rd a
    let y := p.rd b
    let goes := fun (c : Prop) [Decidable c] =>
      Host.Outcome.next (s.setProc s.cur { p with pc := if c then p.pc + BitVec.ofInt 64 (4 * d.toInt) else p.pc + 4 })
    exec (.beq a b d) s = goes (x = y)
    ∧ exec (.bne a b d) s = goes (x ≠ y)
    ∧ exec (.blt a b d) s = goes (x.toInt < y.toInt)
    ∧ exec (.bge a b d) s = goes (y.toInt ≤ x.toInt)
    ∧ exec (.bltu a b d) s = goes (x.toNat < y.toNat)
    ∧ exec (.bgeu a b d) s = goes (y.toNat ≤ x.toNat)

/-- R134: JAL, of major 0x1A, writes the address of the next word and jumps; to g0 it only jumps. -/
def Obligations.JumpAndLink : Prop :=
  (∀ (priv : Bool) (a : GReg) (d : BitVec 21), decodeScalar priv (0x1A#6 ++ a ++ d) = .ok (.jal a d))
  ∧ ∀ (s : State) (p : Proc) (a : GReg) (d : BitVec 21), s.proc? s.cur = some p →
    exec (.jal a d) s = .next (s.setProc s.cur { p.wr a (p.pc + 4) with pc := p.pc + BitVec.ofInt 64 (4 * d.toInt) })
    ∧ exec (.jal 0 d) s = .next (s.setProc s.cur { p with pc := p.pc + BitVec.ofInt 64 (4 * d.toInt) })

/-- R135: JALR, of major 0x1B in format I, jumps to a word address that gb and the displacement name, gb being read
before ga is written; any other target raises cause 0x08 with ga and the PC unchanged. -/
def Obligations.JumpRegister : Prop :=
  (∀ (priv : Bool) (a b : GReg) (imm : BitVec 16), decodeScalar priv (0x1B#6 ++ a ++ b ++ imm) = .ok (.jalr a b imm))
  ∧ ∀ (s : State) (p : Proc) (a b : GReg) (imm : BitVec 16), s.proc? s.cur = some p →
    let t := p.rd b + BitVec.ofInt 64 imm.toInt
    (t.toNat % 4 = 0 → exec (.jalr a b imm) s = .next (s.setProc s.cur { p.wr a (p.pc + 4) with pc := t }))
    ∧ (t.toNat % 4 ≠ 0 → ∃ u, exec (.jalr a b imm) s = .next u ∧ s.raised p 0x08 t 0 u)

/-! ## FP32 (R85, R92-R95, R98, R103, R125, R126) -/

/-- R85, R98, R101-R103, R125: FP32 addition and multiplication round the exact sum or class product once, to nearest
even; the result clears the upper half of ga, and its flags are ORed into VFLAGS. A NaN gives the words that choose or
compare the canonical NaN, or 0 and for an ordered comparison NV. -/
def Obligations.FloatWords : Prop :=
  ∀ (s : State) (p : Proc) (a b c : GReg) (cls : ACls), s.proc? s.cur = some p →
    let x := fFp32.decode ((p.rd b).toNat % 2 ^ 32)
    let y := fFp32.decode ((p.rd c).toNat % 2 ^ 32)
    let z := fFp32.decode ((p.rd a).toNat % 2 ^ 32)
    let rounds := fun (v : FVal) (nv : Bool) =>
      s.wroteFlags p a (BitVec.ofNat 64 (roundVal fFp32 v).1) ((roundVal fFp32 v).2.or (Flags.nvIf nv))
    let m := (p.rd b).toNat % 2 ^ 32
    let n := (p.rd c).toNat % 2 ^ 32
    let nan := x = .nan ∨ y = .nan
    let puts := fun (v : Nat) (f : Flags) => s.wroteFlags p a (BitVec.ofNat 64 v) f
    exec (.fadd a b c) s = rounds (x.add y).1 (x.add y).2
    ∧ exec (.fsub a b c) s = rounds (x.add y.neg).1 (x.add y.neg).2
    ∧ exec (.fmul cls a b c) s = rounds (x.mul cls 24 y).1 (x.mul cls 24 y).2
    ∧ exec (.fma cls a b c) s
      = rounds ((x.mul cls 24 y).1.add z).1 ((x.mul cls 24 y).2 || ((x.mul cls 24 y).1.add z).2)
    ∧ (nan → exec (.fmin a b c) s = puts 0x7FC00000 Flags.none ∧ exec (.fmax a b c) s = puts 0x7FC00000 Flags.none
      ∧ exec (.fcmpeq a b c) s = puts 0 Flags.none ∧ exec (.fcmplt a b c) s = puts 0 Flags.invalid
      ∧ exec (.fcmple a b c) s = puts 0 Flags.invalid)
    ∧ (¬nan → exec (.fmin a b c) s = puts (if y.below x then n else m) Flags.none
      ∧ exec (.fmax a b c) s = puts (if x.below y then n else m) Flags.none
      ∧ exec (.fcmpeq a b c) s = puts (if x.lt y ∨ y.lt x then 0 else 1) Flags.none
      ∧ exec (.fcmplt a b c) s = puts (if x.lt y then 1 else 0) Flags.none
      ∧ exec (.fcmple a b c) s = puts (if y.lt x then 0 else 1) Flags.none)

/-- R126: the special cases of FDIV, with the sign the exclusive OR of the operands', and of FSQRT; else the quotient,
kept to 96 bits behind the point, or the root, kept to 90 bits or more, each with whether more follows, is rounded to
nearest even. R95, R125: the conversions; a BF16 value is an FP32 value with sixteen zero bits behind it. -/
def Obligations.FloatDivisionAndConversion : Prop :=
  (∀ (s : State) (p : Proc) (a b c : GReg), s.proc? s.cur = some p →
     let x := fFp32.decode ((p.rd b).toNat % 2 ^ 32)
     let y := fFp32.decode ((p.rd c).toNat % 2 ^ 32)
     let signed := fun (neg : Bool) (v : Nat) => if neg then 0x80000000 + v else v
     (∃ r f, exec (.fdiv a b c) s = s.wroteFlags p a (BitVec.ofNat 64 r) f
       ∧ (x = .nan ∨ y = .nan → r = 0x7FC00000 ∧ f = Flags.none)
       ∧ (∀ u v, x = .inf u → y = .inf v → r = 0x7FC00000 ∧ f = Flags.invalid)
       ∧ (∀ u v n e, x = .inf u → y = .fin v n e → r = signed (u != v) 0x7F800000 ∧ f = Flags.none)
       ∧ (∀ u m e v, x = .fin u m e → y = .inf v → r = signed (u != v) 0 ∧ f = Flags.none)
       ∧ (∀ u m e v n e', x = .fin u m e → y = .fin v n e' →
         (n = 0 → m = 0 → r = 0x7FC00000 ∧ f = Flags.invalid)
         ∧ (n = 0 → m ≠ 0 → r = signed (u != v) 0x7F800000 ∧ f = Flags.divZero)
         ∧ (n ≠ 0 → m = 0 → r = signed (u != v) 0 ∧ f = Flags.none)
         ∧ (n ≠ 0 → m ≠ 0 → ∃ q more, (r, f) = roundMag fFp32 .rne false 0 (u != v) q (e - e' - 96) more
           ∧ q * n ≤ m * 2 ^ 96 ∧ m * 2 ^ 96 < (q + 1) * n ∧ (more = false ↔ q * n = m * 2 ^ 96))))
     ∧ ∃ r f, exec (.fsqrt a b) s = s.wroteFlags p a (BitVec.ofNat 64 r) f
       ∧ (x = .nan → r = 0x7FC00000 ∧ f = Flags.none)
       ∧ (x = .inf true → r = 0x7FC00000 ∧ f = Flags.invalid)
       ∧ (x = .inf false → r = 0x7F800000 ∧ f = Flags.none)
       ∧ (∀ u e, x = .fin u 0 e → r = (p.rd b).toNat % 2 ^ 32 ∧ f = Flags.none)
       ∧ (∀ m e, m ≠ 0 → x = .fin true m e → r = 0x7FC00000 ∧ f = Flags.invalid)
       ∧ (∀ m e, m ≠ 0 → x = .fin false m e →
         ∃ (q : Nat) (e' : Int) (d : Nat) (more : Bool), (r, f) = roundMag fFp32 .rne false 0 false q e' more
           ∧ e = 2 * e' + d ∧ 2 ^ 90 ≤ q ∧ q * q ≤ m * 2 ^ d ∧ m * 2 ^ d < (q + 1) * (q + 1)
           ∧ (more = false ↔ q * q = m * 2 ^ d)))
  ∧ (∀ (s : State) (p : Proc) (a b : GReg) (rm : RMode), s.proc? s.cur = some p →
       let x := fFp32.decode ((p.rd b).toNat % 2 ^ 32)
       let h := (p.rd b).toNat % 2 ^ 16
       let key := srBits p.srseed (32 + a.toNat) 0
       let puts := fun (v : Nat) (f : Flags) => s.wroteFlags p a (BitVec.ofNat 64 v) f
       let signed := fun (neg : Bool) (v : Nat) => if neg then 0x8000 + v else v
       exec (.fcvtfi rm a b) s
         = (let r := roundMag fFp32 rm false key (decide ((p.rd b).toInt < 0)) (p.rd b).toInt.natAbs 0 false
            puts r.1 r.2)
       ∧ exec (.fcvtfb a b) s = puts (if fBf16.decode h = .nan then 0x7FC00000 else h * 2 ^ 16) Flags.none
       ∧ (x = .nan → exec (.fcvtif rm a b) s = puts 0 Flags.invalid ∧ exec (.fcvtbf rm a b) s = puts 0x7FC0 Flags.none)
       ∧ (∀ u, x = .inf u → exec (.fcvtif rm a b) s = puts (if u then 2 ^ 63 else 2 ^ 63 - 1) Flags.invalid
         ∧ exec (.fcvtbf rm a b) s = puts (signed u 0x7F80) Flags.none)
       ∧ (∀ u m e, x = .fin u m e →
         (let r := roundMag fBf16 rm false key u m e false
          exec (.fcvtbf rm a b) s = puts r.1 r.2)
         ∧ ∃ (n : Int) (nx : Bool), roundInt rm key u m e = (n, nx)
           ∧ (n < -2 ^ 63 → exec (.fcvtif rm a b) s = puts (2 ^ 63) Flags.invalid)
           ∧ (2 ^ 63 ≤ n → exec (.fcvtif rm a b) s = puts (2 ^ 63 - 1) Flags.invalid)
           ∧ (-2 ^ 63 ≤ n → n < 2 ^ 63 →
             exec (.fcvtif rm a b) s = s.wroteFlags p a (BitVec.ofInt 64 n) { Flags.none with nx })))

/-- R85: every FP32 result that is a NaN is the canonical one, and a NaN operand gives it and raises nothing. -/
def Obligations.CanonicalNan : Prop :=
  ∀ (cls : ACls) (x y z : Nat),
    (∀ r ∈ [fFp32.addEnc x y, fFp32.subEnc x y, fFp32.mulEnc cls x y, fFp32.fmaEnc cls false x y z, fFp32.divEnc x y,
        fFp32.sqrtEnc x], fFp32.decode r.1 = .nan → r.1 = 0x7FC00000)
    ∧ (fFp32.decode x = .nan ∨ fFp32.decode y = .nan →
      ∀ r ∈ [fFp32.addEnc x y, fFp32.subEnc x y, fFp32.mulEnc cls x y, fFp32.fmaEnc cls false x y z, fFp32.divEnc x y],
        r.1 = 0x7FC00000 ∧ r.2 = Flags.none)

/-- R84, R92, R94: rounding a value that a format has gives its encoding and raises nothing, under every mode; within the
finite range RZ gives the greatest encoding that is not above the value, every other mode that or the next, and RNE the
nearer of the two, the even one on a tie. -/
def Obligations.Rounding : Prop :=
  (∀ F ∈ [fFp32, fFp16, fBf16, fE4m3, fE5m2, fE2m1, fW56], ∀ (x : Nat) (mode : RMode) (sat : Bool) (key : Nat),
     x < 2 * F.signBit → x % F.signBit ≤ F.maxEnc → roundVal F (F.decode x) mode sat key = (x, Flags.none))
  ∧ (∀ F ∈ [fFp32, fFp16, fBf16, fE4m3, fE5m2, fE2m1, fW56], ∀ (m : Nat) (e : Int) (mode : RMode) (sat : Bool) (key : Nat),
       let x := FVal.fin false m e
       let n := (roundVal F x .rz).1
       let lo := F.decode n
       let hi := F.decode (n + 1)
       n < F.maxEnc →
         x.lt lo = false ∧ x.lt hi = true
         ∧ ((roundVal F x mode sat key).1 = n ∨ (roundVal F x mode sat key).1 = n + 1)
         ∧ (lo.lt x = false → (roundVal F x mode sat key).1 = n)
         ∧ ((x.add x).1.lt (lo.add hi).1 = true → (roundVal F x .rne sat key).1 = n)
         ∧ ((lo.add hi).1.lt (x.add x).1 = true → (roundVal F x .rne sat key).1 = n + 1)
         ∧ ((roundVal F x .rne sat key).1 % 2 = 0 ∨ (x.add x).1.lt (lo.add hi).1 = true ∨ (lo.add hi).1.lt (x.add x).1 = true))

/-! ## Control registers, fences and service words (R116, R117, R137-R146, R372-R376, R407, R408) -/

/-- R19, R37, R139-R144, R187, R259, R397, R399, R419: what CTLR copies from each register that keeps nobody waiting; a
CTLW of a read-only register is ignored, and one of ENCORE sets the mode of entries introduced later and the replay count.
R97-R99, R139, R199, R218, R269: a register that vector work reads or writes is read and written once that work has
retired; before that, a CTLR or CTLW of VFLAGS, FFE or VBCNT0-VBCNT7 parks (vector drain). -/
def Obligations.ControlRegisters : Prop :=
  (∀ (s : State) (p : Proc) (a : GReg), s.proc? s.cur = some p →
     let d := p.desc
     let reads := fun (x : BitVec 12) (v : Word) => exec (.ctlr a x) s = s.wrote p a v
     reads 0x000 (BitVec.ofNat 64 ((if p.priv then 2 ^ 63 else 0) + d.fport * 2 ^ 56 + (if d.fpen then 2 ^ 55 else 0)
       + d.accs * 2 ^ 52 + d.rows * 2 ^ 42 + d.evbase * 2 ^ 34 + d.evcnt * 2 ^ 25 + d.spbase * 2 ^ 16 + d.spsize * 2 ^ 6))
     ∧ reads 0x001 (BitVec.ofNat 64 d.lproc)
     ∧ reads 0x002 (BitVec.ofNat 64 (p.ldie * 96 + d.ly * 12 + d.lx))
     ∧ reads 0x003 (BitVec.ofNat 64 p.tenant)
     ∧ reads 0x004 (BitVec.ofNat 64 (p.eff * 256 + d.prio))
     ∧ reads 0x010 p.trap.epc ∧ reads 0x011 p.trap.tcause ∧ reads 0x012 p.trap.taddr ∧ reads 0x013 p.trap.telem
     ∧ reads 0x014 p.trap.tinfo
     ∧ reads 0x020 (BitVec.ofNat 64 (p.geom.lrows * 2 ^ 16 + p.geom.nbufs * 2 ^ 12 + p.geom.nregs * 2 ^ 7))
     ∧ reads 0x023 p.xtab0 ∧ reads 0x024 p.xtab1 ∧ reads 0x025 p.srseed
     ∧ reads 0x030 (BitVec.ofNat 64 (p.replays.toNat * 2 ^ 16 + if p.encoreEn then 1 else 0))
     ∧ reads 0x031 (if p.sigctl then 1 else 0)
     ∧ reads 0x032 (s.tile p.tile).spadst
     ∧ reads 0x040 0x204040
     ∧ reads 0x041 (BitVec.ofNat 64 s.cue)
     ∧ exec (.rdcue a) s = s.wrote p a (BitVec.ofNat 64 s.cue)
     ∧ (∀ k : Fin 8, reads (BitVec.ofNat 12 (0x038 + k)) (p.vbcnt[k].setWidth 64))
     ∧ (∀ q : Fin 4, reads (BitVec.ofNat 12 (0x050 + q)) (p.xq[q].handle.setWidth 64))
     ∧ (∀ x ∈ [0x000, 0x001, 0x002, 0x003, 0x004, 0x010, 0x011, 0x012, 0x013, 0x014, 0x020, 0x031, 0x032, 0x040, 0x041, 0x050,
         0x051, 0x052, 0x053], exec (.ctlw a x) s = s.did p)
     ∧ exec (.ctlwEncore a) s
       = s.did { p with encoreEn := (p.rd a).getLsbD 0, replays := (p.rd a).extractLsb' 16 32 })
  ∧ (∀ (s : State) (p : Proc) (a b : GReg) (k : BitVec 3), s.proc? s.cur = some p → p.clear →
       let x := p.rd b
       let f := p.vflags
       (p.vectorIdle = true →
         exec (.ctlrVflags a) s = s.wrote p a (BitVec.ofNat 64 ((if f.nv then 1 else 0) + (if f.dz then 2 else 0)
           + (if f.of then 4 else 0) + (if f.uf then 8 else 0) + if f.nx then 16 else 0))
         ∧ exec (.ctlrFfe a) s = s.wrote p a p.ffe
         ∧ exec (.ctlwVflags b) s = s.did { p with vflags :=
             { nv := x.getLsbD 0, dz := x.getLsbD 1, of := x.getLsbD 2, uf := x.getLsbD 3, nx := x.getLsbD 4 } }
         ∧ exec (.ctlwFfe b) s = s.did { p with ffe := (x.setWidth 32).setWidth 64 }
         ∧ exec (.ctlwVbcnt b k) s = s.did { p with vbcnt := p.vbcnt.set k.toNat (x.setWidth 32) }
         ∧ exec (.ctlwSrseed b) s = s.did { p with srseed := x }
         ∧ exec (.ctlwXtab0 b) s = s.did { p with xtab0 := x }
         ∧ exec (.ctlwXtab1 b) s = s.did { p with xtab1 := x })
       ∧ (p.vectorIdle = false → ∀ i ∈ [.ctlrVflags a, .ctlrFfe a, .ctlwVflags b, .ctlwFfe b, .ctlwVbcnt b k],
         exec i s = .next (s.parkCur p .vectorDrain i)))

/-- R116, R117, R408: in the privileged state a CTLW of a mailbox register is seen from eight cycles later on, and by
nobody before, CTLR reads what is seen now, and ERET ends service code: the slot's process is Ready as it was saved, a
Trapped one at its EPC, with its convoys going on, and service code of a free slot leaves it free. Outside it, each raises
cause 0x03. -/
def Obligations.PrivilegedWords : Prop :=
  ∀ (s : State) (p : Proc) (a b : GReg) (k : BitVec 3), s.proc? s.cur = some p →
    let c := (s.tile p.tile).cycle
    (p.priv = true →
      exec (.ctlrPmbox a k) s = s.wrote p a ((s.tile p.tile).pmboxAt k.toNat)
      ∧ ∃ t, exec (.ctlwPmbox b k) s = .next t ∧ t.procs = (s.setProc s.cur { p with pc := p.pc + 4 }).procs
        ∧ (∀ n, c + 8 ≤ n → { t.tile p.tile with cycle := n }.pmboxAt k.toNat = p.rd b)
        ∧ (∀ j < 8, (t.tile p.tile).pmboxAt j = (s.tile p.tile).pmboxAt j)
        ∧ (∀ j, j ≠ p.tile → t.tile j = s.tile j) ∧ t.mem = s.mem)
    ∧ (p.priv = false → (∃ t, exec (.ctlrPmbox a k) s = .next t ∧ s.raised p 0x03 0 0 t)
      ∧ ∃ t, exec (.ctlwPmbox b k) s = .next t ∧ s.raised p 0x03 0 0 t)
    ∧ (p.priv = false → ∃ t, exec .eret s = .next t ∧ s.raised p 0x03 0 0 t)
    ∧ (p.priv = true → ∀ q, mget s.contexts s.cur = some q → ∃ t r, exec .eret s = .next t ∧ t.proc? s.cur = some r
      ∧ r.priv = false ∧ r.st = .ready ∧ r.pc = (if q.st = .trapped then q.trap.epc else q.pc) ∧ r.g = q.g ∧ r.trap = q.trap
      ∧ r.sigctl = q.sigctl ∧ r.sig = q.sig ∧ r.park = q.park ∧ r.pend = q.pend ∧ r.rows = q.rows ∧ r.masks = q.masks ∧ r.acc = q.acc
      ∧ r.queue = q.queue ∧ r.tasks = q.tasks ∧ r.convoys = q.convoys.map (fun c => { c with stopped := false }) ∧ r.ports = p.ports
      ∧ mget t.contexts s.cur = none ∧ (∀ k, k ≠ s.cur → t.proc? k = s.proc? k) ∧ t.mem = s.mem ∧ t.tiles = s.tiles)
    ∧ (p.priv = true → mget s.contexts s.cur = none →
      ∃ t, exec .eret s = .next t ∧ t.proc? s.cur = none ∧ (∀ k, k ≠ s.cur → t.proc? k = s.proc? k) ∧ t.mem = s.mem ∧ t.tiles = s.tiles)

/-- R395-R399, R407: SYSC and BRK wait for vector work and the vector's stores, then trap behind the word: EPC is the next
word's address, and TINFO is g3, or TADDR the word's own address. -/
def Obligations.ServiceTraps : Prop :=
  ∀ (s : State) (p : Proc), s.proc? s.cur = some p →
    let idle := p.vectorIdle && (s.tile p.tile).vecDrained s.cur
    (idle = false → exec .sysc s = .next (s.parkCur p .vectorDrain .sysc) ∧ exec .brk s = .next (s.parkCur p .vectorDrain .brk))
    ∧ (idle = true → ∀ q, (s.flushAll s.cur).proc? s.cur = some q →
      (∃ t, exec .sysc s = .next t
        ∧ t.proc? s.cur = some ({ q with pc := q.pc + 4 }.trapped 0x09 0 (q.pc + 4) 0 0 (q.rd 3)))
      ∧ ∃ t, exec .brk s = .next t
        ∧ t.proc? s.cur = some ({ q with pc := q.pc + 4 }.trapped 0x0A 0 (q.pc + 4) q.pc 0 0))

/-- R138, R372-R376, R415: each fence is over once the earlier work it names is done, and parks (vector drain) until then;
FENCE.VV takes a place in the block queue, SIG has no effect of its own, and RETIRE ends a process whose vector work,
stores, stream transfers, queries and cue slots are done. -/
def Obligations.FenceWords : Prop :=
  ∀ (s : State) (p : Proc) (x : BitVec 16), s.proc? s.cur = some p →
    let stores := (s.tile p.tile).pendingStores s.cur
    let until_ := fun (i : Instr) (c : Prop) [Decidable c] =>
      exec i s = if c then s.did p else .next (s.parkCur p .vectorDrain i)
    until_ .fenceSv (∀ e ∈ stores, e.vec = true)
    ∧ (let idle := p.vectorIdle = true ∧ ∀ e ∈ stores, e.vec = false
      (¬idle → exec .fenceVs s = .next (s.parkCur p .vectorDrain .fenceVs))
      ∧ (idle → ∀ q, (s.flushAll s.cur).proc? s.cur = some q → exec .fenceVs s = (s.flushAll s.cur).did q))
    ∧ until_ .vsync (p.vectorIdle = true ∧ stores = [])
    ∧ (p.queue.length < 8 → ∃ e, e.kind = .fence ∧ e.id = p.nextId ∧ e.stopped = false
      ∧ exec .fenceVv s = s.did { p with queue := p.queue ++ [e], nextId := p.nextId + 1 })
    ∧ (8 ≤ p.queue.length → exec .fenceVv s = .next (s.parkCur p .vectorDrain .fenceVv))
    ∧ exec (.sig x) s = s.did p
    ∧ (p.vectorIdle = true →
    (s.tile p.tile).pendingStores s.cur = [] → p.acks = [] → p.queries = [] → p.launches = [] → p.cueWait = [] →
    p.armed = false → (∀ j < 8, p.streamOwes j = false) →
    ∃ t, exec .retire s = .next t ∧ t.proc? s.cur = some p.ended ∧ t.mem = s.mem)

/-! ## Words that hand work to the vector unit (R183, R188-R190, R276, R277, R340, R348, R356) -/

/-- R183, R188-R190, R340, R352, R356: VCONF sets the geometry and zeroes rows and masks; VFETCH puts its block with a
snapshot behind the blocks before it, and VLOOP a loop of gb iterations; each raises its causes, or parks while there is
no room. -/
def Obligations.VectorHandOver : Prop :=
  (∀ (s : State) (p : Proc) (a : GReg) (n : BitVec 3) (b : BitVec 4), s.proc? s.cur = some p → p.clear →
     p.vectorIdle = true → (∀ j < 8, (p.stream j).mode ≠ .unconfigured ∨ (p.stream j).open = false) → p.closing = [] →
     let k := 4 * n.toNat
     let bound := ∃ j < 8, (p.stream j).bound = true
     let rows := p.desc.rows / (k + b.toNat)
     let bad := (k = 0 ∧ b ≠ 0) ∨ p.desc.rows < k + b.toNat
     (bound → ∃ t, exec (.vconf a n b) s = .next t ∧ s.raised p 0x51 0 0 t)
     ∧ (¬bound → bad → ∃ t, exec (.vconf a n b) s = .next t ∧ s.raised p 0x50 0 0 t)
     ∧ (¬bound → ¬bad → exec (.vconf a n b) s = s.wrote
         { p with rows := [], rowPoison := [], masks := [], geom := { lrows := rows, nbufs := b.toNat, nregs := k } } a
         (BitVec.ofNat 64 (rows * 2 ^ 16 + b.toNat * 2 ^ 12 + k * 2 ^ 7))))
  ∧ (∀ (s : State) (p : Proc) (d : BitVec 21), s.proc? s.cur = some p →
       let t := p.pc + BitVec.ofInt 64 (4 * d.toInt)
       (t.getLsbD 2 = true → ∃ u, exec (.vfetch d) s = .next u ∧ s.raised p 0x08 t 0 u)
       ∧ (t.getLsbD 2 = false → 8 ≤ p.queue.length → exec (.vfetch d) s = .next (s.parkCur p .vectorDrain (.vfetch d)))
       ∧ (t.getLsbD 2 = false → p.queue.length < 8 → ∃ e, e.id = p.nextId ∧ e.kind = .block ∧ e.addr = t ∧ e.vpc = t
         ∧ e.snap.g = p.g ∧ e.snap.grant = p.grant ∧ e.snap.encore = p.encoreEn ∧ e.stopped = false
         ∧ exec (.vfetch d) s = s.did { p with
             queue := p.queue ++ [e], nextId := p.nextId + 1
             pending := p.pending ++ (s.blockWrites p t).map (fun r => (r, p.nextId)) }))
  ∧ (∀ (s : State) (p : Proc) (a b c : GReg), s.proc? s.cur = some p →
       let trip := p.rd b
       let room := p.queue.length < 8
         ∧ p.tasks.length + (p.queue.filter (fun e => e.kind != .block && e.kind != .fence)).length < 4
       (∀ cause, p.vloopCause trip (p.rd c) = some cause → (cause = 0x65 ∨ cause = 0x64 ∨ cause = 0x61)
         ∧ (cause = 0x65 ↔ 2 ^ 32 ≤ trip.toNat) ∧ ∃ t, exec (.vloop a b c) s = .next t ∧ s.raised p cause 0 0 t)
       ∧ (p.vloopCause trip (p.rd c) = none → ¬room →
         exec (.vloop a b c) s = .next (s.parkCur p .vectorDrain (.vloop a b c)))
       ∧ (p.vloopCause trip (p.rd c) = none → room → ∃ e q, e.id = p.nextId ∧ e.addr = p.rd a
         ∧ e.snap.g = p.g ∧ (∃ step wait set strips, e.kind = .loop trip.toNat step wait set strips
           ∧ step = (p.rd c).toNat / 2 ^ 56)
         ∧ exec (.vloop a b c) s = .next (s.setProc s.cur q) ∧ q.queue = p.queue ++ [e] ∧ q.pc = p.pc + 4 ∧ q.g = p.g
         ∧ ∀ j < 8, (q.stream j).steps = (p.stream j).steps + if (p.rd c).getLsbD (56 + j) then trip.toNat else 0))

/-- R276, R277, R340, R348: MSETL grants each signed request clamped to 0-64, 0-64 and 0-32, and writes the grants back;
SSTEP moves every stream of its mask one strip on, the last strip ending the transfer, and raises 0x61, none moving, where
one cannot step. -/
def Obligations.SizesAndSteps : Prop :=
  ∀ (s : State) (p : Proc) (a b c : GReg) (mask : BitVec 8), s.proc? s.cur = some p →
    let clamp := fun (x : Word) (top : Int) => (min (max x.toInt 0) top).toNat
    let m := clamp (p.rd a) 64
    let n := clamp (p.rd b) 64
    let k := clamp (p.rd c) 32
    let can := fun (j : Nat) => (p.stream j).bound = true ∧ (p.stream j).steps < (p.stream j).stripCount
    exec (.msetl a b c) s = s.did { ((p.wr a (BitVec.ofNat 64 m)).wr b (BitVec.ofNat 64 n)).wr c (BitVec.ofNat 64 k) with
      grant := { m, n, k } }
    ∧ ((∀ j < 8, mask.getLsbD j = true → can j) → ∃ q, exec (.sstep mask) s = s.did q ∧ q.g = p.g ∧ q.pc = p.pc
      ∧ ∀ j < 8, q.stream j = if mask.getLsbD j then
          { p.stream j with
            steps := (p.stream j).steps + 1
            mode := if (p.stream j).steps + 1 = (p.stream j).stripCount then .unconfigured else (p.stream j).mode }
        else p.stream j)
    ∧ ((∃ j < 8, mask.getLsbD j = true ∧ ¬can j) → ∃ t, exec (.sstep mask) s = .next t ∧ s.raised p 0x61 0 0 t)

/-! ## Loads, stores and atomics (R119, R127-R132, R240, R246, R298, R306, R312, R317-R319, R366) -/

/-- R127-R129: a load is over with its reply, sign- or zero-extended into ga; a scratchpad load that is granted at once
reads its bytes as they stand. A misaligned address raises 0x08, one outside the region what its check names. -/
def Obligations.LoadWords : Prop :=
  ∀ (s : State) (p : Proc) (sz : Sz) (ord : Ord) (a b : GReg) (d : BitVec 12), s.proc? s.cur = some p →
    let n := szBytes sz
    let t := p.rd b + BitVec.ofInt 64 d.toInt
    let signed := fun (v : Nat) => BitVec.ofInt 64 (BitVec.ofNat (8 * n) v).toInt
    let traps := fun (c : Cause) => ∀ i ∈ [Instr.ld sz ord a b d, .ldu sz ord a b d], ∃ u, exec i s = .next u ∧ s.raised p c t 0 u
    (∀ r, p.pend = some (.done r) →
      exec (.ld sz ord a b d) s = s.wrote { p with pend := none } a (signed (leNat r.bytes))
      ∧ exec (.ldu sz ord a b d) s = s.wrote { p with pend := none } a (BitVec.ofNat 64 (leNat r.bytes)))
    ∧ (p.pend = none → t.toNat % n ≠ 0 → traps 0x08)
    ∧ (p.pend = none → t.toNat % n = 0 → t.getLsbD 51 = false → ∀ c, p.desc.spadCheck t n = some c → traps c)
    ∧ (p.pend = none → t.toNat % n = 0 → t.getLsbD 51 = false → p.desc.spadCheck t n = none → (s.tile p.tile).sound →
      (s.tile p.tile).overlaps s.cur t.toNat n = false → (s.tile p.tile).spadPoison.contains (t.toNat / 8) = false →
      ∀ ks, s.picks = 0 :: ks →
        let v := leNat (memBytes (s.tile p.tile).spad t.toNat n)
        (∃ u, exec (.ld sz ord a b d) s = .next u ∧ s.onlyAt u s.cur ∧ u.chans = s.chans
          ∧ u.proc? s.cur = some { p.wr a (signed v) with pc := p.pc + 4 })
        ∧ ∃ u, exec (.ldu sz ord a b d) s = .next u ∧ s.onlyAt u s.cur ∧ u.chans = s.chans
          ∧ u.proc? s.cur = some { p.wr a (BitVec.ofNat 64 v) with pc := p.pc + 4 })

/-- R127-R129, R131, R246: a scratchpad store enters the FIFO of its slice with the bytes it enables, a release marked
such; a full FIFO parks it, and the acknowledgement of a device store completes it. -/
def Obligations.StoreWords : Prop :=
  ∀ (s : State) (p : Proc) (sz : Sz) (ord : Ord) (a b : GReg) (d : BitVec 12), s.proc? s.cur = some p →
    let n := szBytes sz
    let t := p.rd b + BitVec.ofInt 64 d.toInt
    let i := Instr.st sz ord a b d
    let fifo := (s.tile p.tile).fifo s.cur (t.toNat / 64 % 4)
    (∀ r, p.pend = some (.done r) → exec i s = s.did { p with pend := none })
    ∧ (p.pend = none → t.toNat % n ≠ 0 → ∃ u, exec i s = .next u ∧ s.raised p 0x08 t 0 u)
    ∧ (p.pend = none → t.toNat % n = 0 → t.getLsbD 51 = false →
      (∀ c, p.desc.spadCheck t n = some c → ∃ u, exec i s = .next u ∧ s.raised p c t 0 u)
      ∧ (p.desc.spadCheck t n = none → 8 ≤ fifo.length →
        exec i s = .next (s.parkCur { p with pend := some .spad } .memoryReply i))
      ∧ (p.desc.spadCheck t n = none → fifo.length < 8 → ∃ u e, exec i s = .next u ∧ s.onlyAt u s.cur
        ∧ u.proc? s.cur = some { p with pc := p.pc + 4, storeSeq := p.storeSeq + 1 }
        ∧ (u.tile p.tile).fifo s.cur (t.toNat / 64 % 4) = fifo ++ [e]
        ∧ (u.tile p.tile).spad = (s.tile p.tile).spad
        ∧ e.line = t.toNat / 64 * 64 ∧ e.seq = p.storeSeq ∧ e.vec = false ∧ e.rel = decide (ord ≠ .relaxed)
        ∧ (∀ k < 64, e.enable.getLsbD k = decide (t.toNat % 64 ≤ k ∧ k < t.toNat % 64 + n))
        ∧ ∀ k < n, e.bytes.extractLsb' (8 * (t.toNat % 64 + k)) 8 = (p.rd a).extractLsb' (8 * k) 8))

/-- R317-R319: the reply of an atomic gives the old value, sign-extended; a misaligned address raises 0x08, one in the
scratchpad 0x70. -/
def Obligations.AtomicWords : Prop :=
  ∀ (s : State) (p : Proc) (sz : ASz) (o : Ord) (a b c : GReg), s.proc? s.cur = some p →
    let n := aszBytes sz
    let t := p.rd b
    ∀ i ∈ [Instr.amoadd sz o a b c, .amoand sz o a b c, .amoor sz o a b c, .amoxor sz o a b c, .amomin sz o a b c,
        .amomax sz o a b c, .amominu sz o a b c, .amomaxu sz o a b c, .amoswap sz o a b c, .cas sz o a b c],
      (∀ r, p.pend = some (.done r) → exec i s
        = s.wrote { p with pend := none } a (BitVec.ofInt 64 (BitVec.ofNat (8 * n) (leNat r.bytes)).toInt))
      ∧ (p.pend = none → t.toNat % n ≠ 0 → ∃ u, exec i s = .next u ∧ s.raised p 0x08 t 0 u)
      ∧ (p.pend = none → t.toNat % n = 0 → t.getLsbD 51 = false → ∃ u, exec i s = .next u ∧ s.raised p 0x70 t 0 u)

/-- R298, R306, R312, R316, R318, R366: an aligned device access whose page the TLB holds sends one request for the
physical address and parks; a release waits for the stores before it; an address outside the device window raises 0x24 and
a page that forbids the access its fault, both with the kind in TINFO. -/
def Obligations.DeviceAccesses : Prop :=
  ∀ (s : State) (p : Proc) (i : Instr) (x : Access), s.proc? s.cur = some p → p.pend = none →
    p.accessOf i = some x → recordBytes i = 0 → x.va.toNat % x.n = 0 → x.va.getLsbD 51 = true →
    let waits := { p with st := .parked .memoryReply, park := some { reason := .memoryReply, instr := i, sigAfter := p.sig }
                          woken := false, sig := p.sigOld }
    let ready := x.rel = true → (s.tile p.tile).drained s.cur p.storeSeq = true
    let traps := fun (c : Cause) (level : Nat) => ∃ u, exec i s = .next u
      ∧ u.proc? s.cur = some ({ p with sig := p.sigOld }.trapped c 0 p.pc x.va 0 (BitVec.ofNat 64 (level * 2 ^ 32 + x.kind * 2 ^ 36)))
    (x.va >>> 48 ≠ 8 → traps 0x24 0)
    ∧ (x.va >>> 48 = 8 → ¬ready → exec i s = .next (s.setProc s.cur { waits with pend := some .hold }))
    ∧ (x.va >>> 48 = 8 → ready → ∀ l, tlbFind (s.tile p.tile).tlb x.va.toNat = some l →
      (∀ c level, l.access x.va.toNat x.kind = .error (c, level) → traps c level)
      ∧ ∀ pa, l.access x.va.toNat x.kind = .ok (.phys pa) → ∃ u, exec i s = .next u ∧ s.onlyAt u s.cur
        ∧ u.proc? s.cur = some { waits with pend := some (.sent s.nextReq) }
        ∧ u.flight = s.flight ++ [{ id := s.nextReq, src := .proc s.cur, pa, kind := x.req, prio := p.eff, age := s.reqAge }])

/-! ## Channels, streams, events, transfers: the scalar words (ch. 05, 11, 13, 15) -/

/-- R148, R161, R163-R165: SEND and SENDC spend a credit and leave the token to be launched; with no credit they park, to
a retired consumer they discard, and an unbound or a consuming port raises 0x30 or 0x34. -/
def Obligations.SendWords : Prop :=
  ∀ (s : State) (p : Proc) (a : GReg) (q : Port) (tag : BitVec 8), s.proc? s.cur = some p → p.clear →
    ∀ it ∈ [(Instr.send a q, (0 : Byte)), (.sendc a q tag, tag)],
      let i := it.1
      (p.port q.toNat = none → ∃ u, exec i s = .next u ∧ s.raised p 0x30 0 0 u)
      ∧ (∀ c, p.port q.toNat = some (c, false) → ∃ u, exec i s = .next u ∧ s.raised p 0x34 0 0 u)
      ∧ (∀ c x, p.port q.toNat = some (c, true) → s.chan? c = some x → p.portHeld q.toNat = true →
        exec i s = .next (s.parkCur p .cueWait i))
      ∧ (∀ c x, p.port q.toNat = some (c, true) → s.chan? c = some x → p.portHeld q.toNat = false →
        (s.consumerRetired x = true → ∃ u, exec i s = .next u ∧ s.onlyAt u s.cur ∧ u.chans = s.chans
          ∧ u.proc? s.cur = some { p with pc := p.pc + 4 }
          ∧ ∀ m, mget s.nets x.net = some m → mget u.nets x.net = some { m with discarded := m.discarded + 1 })
        ∧ (s.consumerRetired x = false → ∀ k r, x.prodOf (.proc s.cur q.toNat) = some k → x.prods[k]? = some r →
          (r.credits = 0 → exec i s = .next (s.parkCur p .channelWrite i))
          ∧ (r.credits ≠ 0 → ∃ u, exec i s = .next u ∧ s.onlyAt u s.cur ∧ u.tiles = s.tiles
            ∧ u.proc? s.cur = some { p with pc := p.pc + 4, launches := p.launches ++ [{
                chan := c, prod := k, after := p.storeSeq
                token := if x.wide then
                    { data := leBytes 8 (p.rd a).toNat ++ List.replicate 56 0, tag := it.2, poison := List.replicate 8 false }
                  else { data := leBytes 8 (p.rd a).toNat, tag := it.2, poison := [false] } }] }
            ∧ u.chan? c = some { x with prods := x.prods.set k { r with credits := r.credits - 1, sent := r.sent + 1 } })))

/-- R155, R164, R166: RECV takes the oldest token, its tag into the next register, and returns the sender's credit; RECVN
takes an ordinary one and raises 0x31 for another tag, 0x32 for a fault token; poison raises 0x40; an empty port parks. R179: free
slots take spilled tokens before the receive completes. -/
def Obligations.ReceiveWords : Prop :=
  ∀ (s : State) (p : Proc) (a : GReg) (q : Port), s.proc? s.cur = some p → p.clear →
    (∀ i ∈ [Instr.recv a q, .recvn a q],
      (p.port q.toNat = none → ∃ u, exec i s = .next u ∧ s.raised p 0x30 0 0 u)
      ∧ (∀ c, p.port q.toNat = some (c, true) → ∃ u, exec i s = .next u ∧ s.raised p 0x34 0 0 u)
      ∧ (∀ c x, p.port q.toNat = some (c, false) → s.chan? c = some x → x.buffer = [] ∨ p.triggered q.toNat = true →
        exec i s = .next (s.parkCur p .channelRead i)))
    ∧ (∀ c x k t rest, p.port q.toNat = some (c, false) → s.chan? c = some x → p.triggered q.toNat = false →
      x.buffer = (k, t) :: rest →
      let v := BitVec.ofNat 64 (leNat (t.data.take 8))
      let x' := { x with
        buffer := rest ++ x.spill.take (x.slots - x.buffer.length), spill := x.spill.drop (x.slots - x.buffer.length)
        consumed := x.consumed + 1, prods := x.prods.modify k (fun r => { r with returning := r.returning + 1 }) }
      let traps := fun (i : Instr) (e : Cause) => ∃ u, exec i s = .next u ∧ s.raised p e 0 0 u
      let takes := fun (i : Instr) (p' : Proc) => ∃ u, exec i s = .next u ∧ s.onlyAt u s.cur ∧ u.tiles = s.tiles
        ∧ u.proc? s.cur = some { p' with pc := p.pc + 4 } ∧ u.chan? c = some x'
      (t.poison.headD false = true → traps (.recv a q) 0x40)
      ∧ (t.poison.headD false = false → takes (.recv a q) ((p.wr a v).wr (a + 1) (t.tag.setWidth 64)))
      ∧ (t.tag = 128 → traps (.recvn a q) 0x32) ∧ (t.tag ≠ 128 → t.tag ≠ 0 → traps (.recvn a q) 0x31)
      ∧ (t.tag = 0 → t.poison.headD false = true → traps (.recvn a q) 0x40)
      ∧ (t.tag = 0 → t.poison.headD false = false → takes (.recvn a q) (p.wr a v)))

/-- R333-R338, R346: SCONF, its record read, binds the stream with it, a bound stream's groups zero; a stream still bound
raises 0x61, a record that fails its checks what they name. R341, R342, R347, R349, R350: SKICK numbers and begins a
transfer; STWAIT waits for one and reads the watermark word; SDRAIN unbinds the stream. -/
def Obligations.StreamWords : Prop :=
  (∀ (s : State) (p : Proc) (b : GReg) (j : BitVec 3) (r : Reply), s.proc? s.cur = some p → p.clear →
     p.pend = some (.done r) → 48 ≤ p.record.length → p.streamHeld j.toNat = false →
     let bytes := p.record.take 48
     let n := recordOf bytes
     let old := p.stream j.toNat
     let busy := old.bound || (old.mode == .copy && !old.kicks.isEmpty)
     s.recordWait p (.sconf b j) bytes = none →
     (busy = true → ∃ u, exec (.sconf b j) s = .next u ∧ u.proc? s.cur = some ({ p with sig := p.sigOld }.trapped 0x61 0 p.pc 0 0 0))
     ∧ (busy = false → ∀ c, p.recordCause j.toNat n (leNat (bytes.drop 40)) = some c → ∃ u, exec (.sconf b j) s = .next u
       ∧ u.proc? s.cur = some ({ p with sig := p.sigOld }.trapped c 0 p.pc 0 0 0))
     ∧ (busy = false → p.recordCause j.toNat n (leNat (bytes.drop 40)) = none → ∃ q, exec (.sconf b j) s = s.did q
       ∧ q.stream j.toNat = { n with
           mode := if n.modeCode = 1 then .load else if n.modeCode = 2 then .store else .copy
           conf := old.conf + 1, lrows := p.geom.lrows, perm := if n.permBit then p.permOf n.vi else []
           lastId := old.lastId, fault := old.fault, watermark := old.watermark, opened := !p.oldStrips j.toNat n }
       ∧ (∀ k < 8, k ≠ j.toNat → q.stream k = p.stream k) ∧ q.g = p.g ∧ q.pc = p.pc ∧ q.pend = none
       ∧ q.closing = (if old.modeCode ≠ 0 ∧ old.unfinished = true then p.closing ++ [(j.toNat, old)] else p.closing)
       ∧ (n.modeCode ≠ 0 → p.oldStrips j.toNat n = false → ∀ g ∈ n.groupList, ∀ x ∈ q.rows,
         x.1 < (p.geom.nregs + g) * p.geom.lrows ∨ (p.geom.nregs + g) * p.geom.lrows + p.geom.lrows ≤ x.1)))
  ∧ (∀ (s : State) (p : Proc) (a b : GReg) (j : BitVec 3), s.proc? s.cur = some p → p.clear → p.streamHeld j.toNat = false →
       let t := p.stream j.toNat
       let x := (p.rd b).toNat % 2 ^ 48
       (∀ c, p.kickCause j.toNat (p.rd b).toNat = some c → ∃ u, exec (.skick b j) s = .next u ∧ s.raised p c 0 0 u)
       ∧ (p.kickCause j.toNat (p.rd b).toNat = none → 4 ≤ t.kicks.length →
         exec (.skick b j) s = .next (s.parkCur p .transferWait (.skick b j)))
       ∧ (p.kickCause j.toNat (p.rd b).toNat = none → t.kicks.length < 4 →
         ∀ q, (s.flushAll s.cur).proc? s.cur = some q → ∃ u r, exec (.skick b j) s = .next u ∧ u.proc? s.cur = some r
           ∧ r.g = q.g ∧ r.pc = q.pc + 4 ∧ (r.stream j.toNat).lastId = (q.stream j.toNat).lastId + 1
           ∧ (r.stream j.toNat).kicked = true
           ∧ ((q.stream j.toNat).count ≠ 0 → ∃ k, (r.stream j.toNat).kicks = (q.stream j.toNat).kicks ++ [k]
             ∧ k.id = (q.stream j.toNat).lastId + 1 ∧ k.offset = (p.rd b).toNat ∧ k.started = false ∧ k.next = 0)
           ∧ ((q.stream j.toNat).count = 0 → (∀ x ∈ q.closing, x.1 ≠ j.toNat) → (r.stream j.toNat).watermark = (q.stream j.toNat).lastId + 1))
       ∧ (t.lastId < x → ∃ u, exec (.stwait a b j) s = .next u ∧ s.raised p 0x61 0 0 u)
       ∧ (x ≤ t.lastId → t.fault = false → t.watermark < x →
         exec (.stwait a b j) s = .next (s.parkCur p .transferWait (.stwait a b j)))
       ∧ (x ≤ t.lastId → (t.fault = true ∨ x ≤ t.watermark) →
         exec (.stwait a b j) s = s.wrote p a (BitVec.ofNat 64 ((if t.fault then 2 ^ 63 else 0) + t.watermark)))
       ∧ (t.mode ≠ .unconfigured → p.streamOwes j.toNat = true →
         exec (.sdrain j) s = .next (s.parkCur p .transferWait (.sdrain j)))
       ∧ (t.mode = .unconfigured ∨ p.streamOwes j.toNat = false → ∃ (u : State) (q : Proc), exec (.sdrain j) s = .next u ∧ s.onlyAt u s.cur
         ∧ u.proc? s.cur = some { q with pc := p.pc + 4 } ∧ q.g = p.g ∧ (∀ k < 8, k ≠ j.toNat → q.stream k = p.stream k)
         ∧ (q.stream j.toNat).mode = .unconfigured ∧ (q.stream j.toNat).fault = false ∧ (q.stream j.toNat).strips = []
         ∧ (t.mode ≠ .unconfigured → (q.stream j.toNat).kicks = [] ∧ (q.stream j.toNat).watermark = t.lastId)))

/-- R352-R355: EVSET sets, EVCLR clears, and EVWAIT waits for and consumes the bits its register names in the window; a
bit beyond the window raises 0x64. R328-R330, R381-R385: CUEWAIT waits for its cue; CUE arms or empties a slot; DISPQ
sends one query to the box office of the network that it names. -/
def Obligations.EventAndCueWords : Prop :=
  (∀ (s : State) (p : Proc) (b : GReg), s.proc? s.cur = some p → p.clear →
     let x := (p.rd b).toNat
     let o := x % 256
     let m := x / 256 % 2 ^ 24
     let bad := x / 2 ^ 32 ≠ 0 ∨ (m ≠ 0 ∧ p.desc.evcnt < o + m.log2 + 1)
     let bits : BitVec 256 := BitVec.ofNat 256 (m * 2 ^ (o + p.desc.evbase))
     let after := { p with pc := p.pc + 4 }
     let met := m = 0 ∨ p.testAmong (s.tile p.tile) bits (fun _ => true) = true
     (bad → ∀ i ∈ [Instr.evset b, .evclr b, .evwait b], ∃ u, exec i s = .next u ∧ s.raised p 0x64 0 0 u)
     ∧ (¬bad → (∀ q, (s.flushAll s.cur).proc? s.cur = some q → ∃ u, exec (.evset b) s = .next u
         ∧ u.proc? s.cur = some { q with pc := q.pc + 4 }
         ∧ (u.tile q.tile).events = ((s.flushAll s.cur).tile q.tile).events ||| bits)
       ∧ (∃ u, exec (.evclr b) s = .next u ∧ s.onlyAt u s.cur ∧ u.proc? s.cur = some after
         ∧ (u.tile p.tile).events = (s.tile p.tile).events &&& ~~~bits)
       ∧ (¬met → exec (.evwait b) s = .next (s.parkCur p .eventWait (.evwait b)))
       ∧ (met → ∃ u, exec (.evwait b) s = .next u ∧ s.onlyAt u s.cur ∧ u.proc? s.cur = some after
         ∧ (u.tile p.tile).events = (s.tile p.tile).events &&& ~~~bits)))
  ∧ (∀ (s : State) (p : Proc) (b c : GReg) (ev : BitVec 8) (box : BitVec 5), s.proc? s.cur = some p → p.clear →
       let w := (p.rd c).toNat
       let held := w / 4 % 4 = 1 ∧ p.portHeld (w / 16 % 16) = true ∨ w / 4 % 4 = 2 ∧ p.streamHeld (w / 16 % 16) = true
       let t := p.rd b
       (if t.toNat ≤ s.cue then exec (.cuewait b) s = s.did p
         else exec (.cuewait b) s = .next (s.parkCur p .cueWait (.cuewait b)))
       ∧ (cueMalformed w = true → ∃ u, exec (.cue b c) s = .next u ∧ s.raised p 0xA0 0 0 u)
       ∧ (cueMalformed w = false → held → exec (.cue b c) s = .next (s.parkCur p .cueWait (.cue b c)))
       ∧ (cueMalformed w = false → ¬held → (∀ e, s.cueCause p w = some e → ∃ u, exec (.cue b c) s = .next u ∧ s.raised p e 0 0 u)
         ∧ (s.cueCause p w = none → exec (.cue b c) s = s.did { p with
             cue := p.cue.setIfInBounds (w % 4)
               (if w / 4 % 4 = 0 then none else some { time := t, ctrl := p.rd c, after := p.storeSeq, since := s.cue }) }))
       ∧ (∀ e, s.dispqCause p t box.toNat ev.toNat = some e → ∃ u, exec (.dispq b ev box) s = .next u
         ∧ s.raised p e (if e = 0x71 ∨ e = 0x64 then 0 else t) 0 u)
       ∧ (s.dispqCause p t box.toNat ev.toNat = none → 8 ≤ p.queries.length →
         exec (.dispq b ev box) s = .next (s.parkCur p .memoryReply (.dispq b ev box)))
       ∧ (s.dispqCause p t box.toNat ev.toNat = none → p.queries.length < 8 → ∀ n office count, mget s.nets p.net = some n →
         n.offices[box.toNat]? = some (office, count) → ∀ h : office < 32, ∃ u, exec (.dispq b ev box) s = .next u
           ∧ s.onlyAt u s.cur
           ∧ u.proc? s.cur = some { p with
               pc := p.pc + 4
               queries := p.queries ++ [{ office, addr := t.toNat, ev := ev.toNat, answer := none, store := none }] }
           ∧ u.offices[office].waiting = s.offices[office].waiting ++ [s.cur] ∧ u.offices[office].next = s.offices[office].next))

/-- R431-R434, R437-R439: XPOST adds its request to the queue and XCOLL a collective, each a release; XWAIT reads a count
that has come so far, raises the fault met below it with its number and queue in TINFO, and else parks. -/
def Obligations.TransferWords : Prop :=
  ∀ (s : State) (p : Proc) (a b c : GReg), s.proc? s.cur = some p → p.clear →
    let w := p.rd b
    let v := w.toNat / 2 ^ 16
    let sel := w.toNat / 16 % 4
    let n := w.toNat % 4
    (∀ r, p.pend = some (.done r) → 32 ≤ p.record.length →
      (∀ e, p.postCause (p.rd c) (p.record.take 32) = some e → ∃ u, exec (.xpost b c) s = .next u
        ∧ u.proc? s.cur = some ({ p with sig := p.sigOld }.trapped e 0 p.pc 0 0 0))
      ∧ (p.postCause (p.rd c) (p.record.take 32) = none → s.recordWait p (.xpost b c) (p.record.take 32) = none →
        ∀ q, ((s.setProc s.cur { p with pend := none, record := [] }).flushAll s.cur).proc? s.cur = some q →
          ∃ u r, exec (.xpost b c) s = .next u ∧ u.proc? s.cur = some r ∧ r.g = q.g ∧ r.pc = q.pc + 4
            ∧ (r.queueAt (p.rd c).toNat).posted = (q.queueAt (p.rd c).toNat).posted + 1))
    ∧ (p.xwaitOk w = false → ∃ u, exec (.xwait a b) s = .next u ∧ s.raised p 0x94 0 0 u)
    ∧ (p.xwaitOk w = true → v ≤ p.xcount sel n → exec (.xwait a b) s = s.wrote p a (BitVec.ofNat 64 (p.xcount sel n)))
    ∧ (p.xwaitOk w = true → p.xcount sel n < v → (∀ k e, p.xfault sel n v = some (k, e) → ∃ u, exec (.xwait a b) s = .next u
        ∧ s.raised p e 0 (BitVec.ofNat 64 (k + (if sel = 2 then 4 else n) * 2 ^ 48)) u)
      ∧ (p.xfault sel n v = none → exec (.xwait a b) s = .next (s.parkCur p .transferWait (.xwait a b))))
    ∧ (∀ e, s.collCause s.cur p w (p.rd c) = some e → ∃ u, exec (.xcoll b c) s = .next u
      ∧ s.raised p e (if e = 0x08 then p.rd c else 0) 0 u)
    ∧ (s.collCause s.cur p w (p.rd c) = none → 4 ≤ p.colls.length →
      exec (.xcoll b c) s = .next (s.parkCur p .transferWait (.xcoll b c)))
    ∧ (s.collCause s.cur p w (p.rd c) = none → p.colls.length < 4 →
      ∀ q, (s.flushAll s.cur).proc? s.cur = some q → ∃ u r, exec (.xcoll b c) s = .next u ∧ u.proc? s.cur = some r
        ∧ r.g = q.g ∧ r.pc = q.pc + 4 ∧ r.collIssued = q.collIssued + 1)

/-! ## Vector words, each as a convoy of its own (ch. 06, 07) -/

/-- R195, R204, R206, R211, R227, R230, R231: the integer words, in register and immediate form, act on each active
element alone; the others, and every other register, keep their values and poison. -/
def Obligations.VectorIntegerWords : Prop :=
  ∀ (s : State) (p : Proc) (h : VHdr) (vd va vb vc : VReg) (imm : BitVec 16) (ga gi : GReg) (ch : Bool) (et : ETy),
    let c := p.wordCtx
    let z := etSize h.et
    let w := 8 * z
    let n := vlmax h.et c.lrows
    let on := fun e => p.maskBit h.km e != h.kn
    let x := fun (v : VReg) (e : Nat) => etInt h.et (p.elem (c.base v) z e)
    let y := fun (v : VReg) (e : Nat) => p.elemPsn (c.base v) z e
    let sat := fun (v : Int) => max (min v (etMax h.et)) (etMin h.et)
    let amount := fun (b : Int) => (b % w).toNat
    let puts := fun (i : Instr) (f : Nat → Int) (psn : Nat → Bool) => s.starts p i →
      ∃ q, s.ran p i q [] ∧ p.sameElse q ∧ q.vflags = p.vflags
        ∧ p.wroteElems q (c.base vd) c.lrows z n (fun e => if on e then some (bitsOf w (f e), psn e) else none)
    let both := fun (i j : Instr) (f : Int → Int → Int) =>
      puts i (fun e => f (x va e) (x vb e)) (fun e => y va e || y vb e)
      ∧ puts j (fun e => f (x va e) (etInt h.et (bitsOf w imm.toInt))) (y va)
    both (.vadd h vd va vb) (.vaddImm h vd va imm) (fun a b => a + b)
    ∧ both (.vsub h vd va vb) (.vsubImm h vd va imm) (fun a b => a - b)
    ∧ both (.vadds h vd va vb) (.vaddsImm h vd va imm) (fun a b => sat (a + b))
    ∧ both (.vsubs h vd va vb) (.vsubsImm h vd va imm) (fun a b => sat (a - b))
    ∧ both (.vmul h vd va vb) (.vmulImm h vd va imm) (fun a b => a * b)
    ∧ both (.vmulh h vd va vb) (.vmulhImm h vd va imm) (fun a b => a * b / 2 ^ w)
    ∧ both (.vmin h vd va vb) (.vminImm h vd va imm) (fun a b => min a b)
    ∧ both (.vmax h vd va vb) (.vmaxImm h vd va imm) (fun a b => max a b)
    ∧ both (.vand h vd va vb) (.vandImm h vd va imm) (fun a b => (bitsOf w a &&& bitsOf w b : Nat))
    ∧ both (.vor h vd va vb) (.vorImm h vd va imm) (fun a b => (bitsOf w a ||| bitsOf w b : Nat))
    ∧ both (.vxor h vd va vb) (.vxorImm h vd va imm) (fun a b => (bitsOf w a ^^^ bitsOf w b : Nat))
    ∧ both (.vsll h vd va vb) (.vsllImm h vd va imm) (fun a b => a * 2 ^ amount b)
    ∧ both (.vsrl h vd va vb) (.vsrlImm h vd va imm) (fun a b => bitsOf w a / 2 ^ amount b)
    ∧ both (.vsra h vd va vb) (.vsraImm h vd va imm) (fun a b => signedOf w (bitsOf w a) / 2 ^ amount b)
    ∧ puts (.vmad h vd va vb vc) (fun e => x va e * x vb e + x vc e) (fun e => y va e || y vb e || y vc e)
    ∧ puts (.vabs h vd va) (fun e => (x va e).natAbs) (y va)
    ∧ puts (.vneg h vd va) (fun e => -x va e) (y va)
    ∧ puts (.vbcast h vd ga) (fun _ => (p.rd ga).toNat) (fun _ => false)
    ∧ puts (.viota h vd false) (fun e => e) (fun _ => false)
    ∧ (s.starts p (.vins ch et vd ga gi) → ∃ q, s.ran p (.vins ch et vd ga gi) q [] ∧ p.sameElse q ∧ q.vflags = p.vflags
      ∧ p.wroteElems q (c.base vd) c.lrows (etSize et) (vlmax et c.lrows)
        (fun e => if e = (p.rd gi).toNat then some ((p.rd ga).toNat % 2 ^ etWidth et, false) else none))

/-- R98, R103, R106, R195, R212, R213: the floating-point words act on each active element alone and OR the flags of those
elements, and of no other, into VFLAGS. -/
def Obligations.VectorFloatWords : Prop :=
  ∀ (s : State) (p : Proc) (h : VHdr) (vd va vb vc : VReg),
    let c := p.wordCtx
    let F := etFmtD h.et
    let z := etSize h.et
    let n := vlmax h.et c.lrows
    let on := fun e => p.maskBit h.km e != h.kn
    let x := fun (v : VReg) (e : Nat) => p.elem (c.base v) z e
    let y := fun (v : VReg) (e : Nat) => p.elemPsn (c.base v) z e
    let puts := fun (i : Instr) (f : Nat → Nat × Flags) (psn : Nat → Bool) => s.starts p i →
      ∃ q, s.ran p i q [] ∧ p.sameElse q ∧ q.vflags = p.flagged n on (fun e => (f e).2)
        ∧ p.wroteElems q (c.base vd) c.lrows z n (fun e => if on e then some ((f e).1 % 2 ^ etWidth h.et, psn e) else none)
    let two := fun (i : Instr) (f : Nat → Nat → Nat × Flags) =>
      puts i (fun e => f (x va e) (x vb e)) (fun e => y va e || y vb e)
    let three := fun (i : Instr) (neg : Bool) =>
      puts i (fun e => F.fmaEnc h.cls neg (x va e) (x vb e) (x vc e)) (fun e => y va e || y vb e || y vc e)
    let one := fun (i : Instr) (f : Nat → Nat × Flags) => puts i (fun e => f (x va e)) (y va)
    let sign := fun (f : Nat → Nat) (a : Nat) => (if F.decode a = .nan then F.nan else f a, Flags.none)
    let scaled := fun (a : Nat) (k : Int) => roundVal F ((F.decode a).scale k)
    two (.vfadd h vd va vb) F.addEnc ∧ two (.vfsub h vd va vb) F.subEnc ∧ two (.vfmul h vd va vb) (F.mulEnc h.cls)
    ∧ two (.vfmin h vd va vb) (fun a b => (F.pickEnc false a b, Flags.none))
    ∧ two (.vfmax h vd va vb) (fun a b => (F.pickEnc true a b, Flags.none))
    ∧ two (.vfscl h vd va vb false) (fun a b => scaled a (signedOf (8 * z) b))
    ∧ two (.vfscl h vd va vb true) (fun a b => if b % 256 = 255 then (F.nan, Flags.none) else scaled a ((b % 256 : Nat) - 127))
    ∧ three (.vfma h vd va vb vc) false ∧ three (.vfnma h vd va vb vc) true
    ∧ one (.vfabs h vd va) (sign (fun a => a % F.signBit))
    ∧ one (.vfneg h vd va) (sign (fun a => if a / F.signBit % 2 = 1 then a % F.signBit else F.signBit + a % F.signBit))
    ∧ one (.vfrcp h vd va) (F.fn1 .rcp h.cls) ∧ one (.vfrsq h vd va) (F.fn1 .rsq h.cls)
    ∧ one (.vfexp2 h vd va) (F.fn1 .exp2 h.cls) ∧ one (.vflog2 h vd va) (F.fn1 .log2 h.cls)

/-- R195, R214, R216-R220: the conversions act on the elements both types have, each result formed from the source as it
stood, in place or not; elements beyond keep their values. -/
def Obligations.VectorConversions : Prop :=
  ∀ (s : State) (p : Proc) (h : VHdr) (vd va : VReg) (src : ETy) (sat : Bool) (rm : RMode),
    let c := p.wordCtx
    let F := etFmtD h.et
    let z := etSize h.et
    let on := fun e => p.maskBit h.km e != h.kn
    let key := fun e => srBits p.srseed vd.toNat e
    let slot := fun e => p.slotAt (c.base va) (e / 32)
    let code := fun e => p.elem (c.base va) 1 (e / 2) / (if e % 2 = 0 then 1 else 16) % 16
    let table := fun (k : Nat) => (if k < 8 then p.xtab0.toNat / 2 ^ (8 * k) else p.xtab1.toNat / 2 ^ (8 * (k - 8))) % 256
    let puts := fun (i : Instr) (n : Nat) (f : Nat → Nat × Flags) (psn : Nat → Bool) => s.starts p i →
      ∃ q, s.ran p i q [] ∧ p.sameElse q ∧ q.vflags = p.flagged n on (fun e => (f e).2)
        ∧ p.wroteElems q (c.base vd) c.lrows z (vlmax h.et c.lrows)
          (fun e => if e < n ∧ on e then some ((f e).1 % 2 ^ etWidth h.et, psn e) else none)
    let blockOn := fun (n b : Nat) (j : Nat) => decide (32 * b + j < n) && on (32 * b + j)
    puts (.vcvt h vd va src sat rm) (min (vlmax h.et c.lrows) (vlmax src c.lrows))
      (fun e => convertElem src h.et rm sat (key e) (p.elem (c.base va) (etSize src) e))
      (fun e => p.elemPsn (c.base va) (etSize src) e)
    ∧ puts (.vcvtx h vd va) (vlmax h.et c.lrows)
      (fun e => (if F.decode (table (code e)) = .nan then F.nan else table (code e), Flags.none))
      (fun e => p.elemPsn (c.base va) 1 (e / 2))
    ∧ puts (.vmxup h vd va rm) (min (896 * c.lrows) (vlmax h.et c.lrows))
      (fun e => if slotScale (slot e) = 255 then (F.nan, Flags.none)
        else convertFlt F ((fE2m1.decode (slotCode (slot e) (e % 32))).scale ((slotScale (slot e) : Nat) - 127)) rm false (key e))
      (fun e => p.slotPsn (c.base va) (e / 32))
    ∧ (s.starts p (.vmxpk h vd va src rm) →
      let n := min (vlmax src c.lrows) (896 * c.lrows)
      let pack := fun b => mxPack (etFmtD src) rm (fun j => key (32 * b + j))
        ((List.range 32).map (fun j => (p.elem (c.base va) (etSize src) (32 * b + j), blockOn n b j)))
      ∃ q, s.ran p (.vmxpk h vd va src rm) q [] ∧ p.sameElse q
        ∧ p.wroteUnits q (c.base vd) c.lrows .mx4 (fun b => if (List.range 32).any (blockOn n b) then
            some ((pack b).1, (List.range 32).any (fun j => blockOn n b j && p.elemPsn (c.base va) (etSize src) (32 * b + j)))
          else none))

/-- R186, R203, R208, R221-R225, R231, R237: compares, mask words and poison words; a mask's bits at or above VLMAX become
zero and k0 discards what is written. A poisoned element that a compare, VMXV or VEXT reads stops the word. -/
def Obligations.VectorMaskWords : Prop :=
  ∀ (s : State) (p : Proc) (h : VHdr) (kd ka kb : KReg) (vd va vb : VReg) (cond : Cond) (gd gi gn : GReg) (uns ch : Bool)
      (et : ETy),
    let c := p.wordCtx
    let z := etSize h.et
    let n := vlmax h.et c.lrows
    let on := fun e => decide (e < n) && (p.maskBit h.km e != h.kn)
    let x := fun (v : VReg) (e : Nat) => p.elem (c.base v) z e
    let psn := fun (v : VReg) (e : Nat) => p.elemPsn (c.base v) z e
    let slotPsn := fun (v : VReg) (e : Nat) => p.slotPsn (c.base v) (e / 32)
    let sets := fun (i : Instr) (f : Nat → Bool) (fl : Flags) => ∃ q, s.ran p i q [] ∧ p.sameButMasks q ∧ q.vflags = p.vflags.or fl
      ∧ (∀ k, k ≠ kd → ∀ e, q.maskBit k e = p.maskBit k e)
      ∧ ∀ e < 896 * c.lrows, q.maskBit kd e = (kd == 0 || (decide (e < n) && if on e then f e else p.maskBit kd e))
    let checked := fun (i : Instr) (bad : Nat → Bool) (f : Nat → Bool) (fl : Flags) => s.starts p i →
      ((∀ e, on e → bad e = false) → sets i f fl)
      ∧ ∀ e, on e → bad e = true → (∀ j < 64 * (e / 64), on j → bad j = false) → s.stopsPoisoned i (e / 64) 0
    let always := fun (i : Instr) (f : Nat → Bool) => s.starts p i → sets i f Flags.none
    let D := fun (v : VReg) (e : Nat) => (etFmtD h.et).decode (x v e)
    let bits := ((List.range n).filter (fun e => on e && p.maskBit ka e))
    checked (.vcmp h kd va vb cond) (fun e => psn va e || psn vb e)
      (fun e => condInt cond (etInt h.et (x va e)) (etInt h.et (x vb e))) Flags.none
    ∧ checked (.vfcmp h kd va vb cond) (fun e => psn va e || psn vb e) (fun e => (condFlt cond (D va e) (D vb e)).1)
      (Flags.nvIf ((List.range n).any (fun e => on e && (condFlt cond (D va e) (D vb e)).2)))
    ∧ checked (.vmxv h kd va) (slotPsn va) (fun e => slotScale (p.slotAt (c.base va) (e / 32)) != 255) Flags.none
    ∧ always (.vwhile h kd gi gn uns) (fun e =>
      if uns then decide ((p.rd gi).toNat + e < (p.rd gn).toNat) else decide ((p.rd gi).toInt + (e : Int) < (p.rd gn).toInt))
    ∧ always (.kand h kd ka kb) (fun e => p.maskBit ka e && p.maskBit kb e)
    ∧ always (.kor h kd ka kb) (fun e => p.maskBit ka e || p.maskBit kb e)
    ∧ always (.kxor h kd ka kb) (fun e => p.maskBit ka e != p.maskBit kb e)
    ∧ always (.kandn h kd ka kb) (fun e => p.maskBit ka e && !p.maskBit kb e)
    ∧ always (.knot h kd ka) (fun e => !p.maskBit ka e)
    ∧ always (.kmov h kd ka) (fun e => p.maskBit ka e)
    ∧ always (.vpsn h kd va) (fun e => if h.et = .mx4 then slotPsn va e else psn va e)
    ∧ (s.starts p (.vpclr h vd) → ∃ q, s.ran p (.vpclr h vd) q [] ∧ p.sameElse q ∧ q.vflags = p.vflags
      ∧ (h.et ≠ .mx4 → p.wroteElems q (c.base vd) c.lrows z n (fun e => if on e then some (x vd e, false) else none))
      ∧ (h.et = .mx4 → p.rowsElse q (c.base vd) c.lrows ∧ ∀ u < 28 * c.lrows, q.slotAt (c.base vd) u = p.slotAt (c.base vd) u
        ∧ q.slotPsn (c.base vd) u = (p.slotPsn (c.base vd) u && !(List.range 32).any (fun j => on (32 * u + j)))))
    ∧ (s.starts p (.kpop h gd ka) → s.ran p (.kpop h gd ka) p [(gd.toNat, BitVec.ofNat 64 bits.length)])
    ∧ (s.starts p (.kfirst h gd ka) →
      s.ran p (.kfirst h gd ka) p [(gd.toNat, bits.head?.elim 0xFFFFFFFFFFFFFFFF (BitVec.ofNat 64))])
    ∧ (s.starts p (.vext ch et gd va gi) →
      let i := (p.rd gi).toNat
      (vlmax et c.lrows ≤ i → s.ran p (.vext ch et gd va gi) p [(gd.toNat, 0)])
      ∧ (i < vlmax et c.lrows → p.elemPsn (c.base va) (etSize et) i = false → s.ran p (.vext ch et gd va gi) p
        [(gd.toNat, BitVec.ofInt 64 (etInt et (p.elem (c.base va) (etSize et) i)))])
      ∧ (i < vlmax et c.lrows → p.elemPsn (c.base va) (etSize et) i = true →
        s.stopsPoisoned (.vext ch et gd va gi) (groupsOf et c.lrows) (BitVec.ofNat 64 i)))

/-- R195, R226-R230: the words that move units between places write the active units, each formed from the registers as
they stood; a source beyond the register gives the zero unit. -/
def Obligations.PermutationWords : Prop :=
  ∀ (s : State) (p : Proc) (h : VHdr) (vd va vb : VReg) (src : ETy) (log2B : BitVec 5) (n : BitVec 16),
    let c := p.wordCtx
    let U := unitCount h.et c.lrows
    let on := fun u => p.maskBit h.km (if h.et = .mx4 then 32 * u else u) != h.kn
    let us := (List.range U).filter on
    let at_ := fun (v : VReg) (u : Nat) => if u < U then p.unit (c.base v) h.et u else (if h.et = .mx4 then 256 else 0, false)
    let width := if h.et = .mx4 then 2 else etSize h.et
    let idx := fun u => p.elem (c.base vb) width u
    let psn := fun (x : Nat × Bool) (u : Nat) => (x.1, x.2 || p.elemPsn (c.base vb) width u)
    let puts := fun (i : Instr) (f : Nat → Option (Nat × Bool)) => s.starts p i →
      ∃ q, s.ran p i q [] ∧ p.sameElse q ∧ q.vflags = p.vflags ∧ p.wroteUnits q (c.base vd) c.lrows h.et f
    let all := fun (i : Instr) (f : Nat → Nat × Bool) => puts i (fun u => if on u then some (f u) else none)
    let near := fun (u : Nat) (k : Nat) => k * (u / k) + idx u % k
    all (.vmov h vd va) (at_ va)
    ∧ all (.vgathr h vd va vb) (fun u => psn (at_ va (idx u)) u)
    ∧ all (.vperm h vd va vb) (fun u => psn (at_ va (near u (if h.et = .mx4 then 28 else 64))) u)
    ∧ all (.vsldu h vd va vb n) (fun u => if n.toNat ≤ u then at_ va (u - n.toNat)
        else if n.toNat ≤ u + U then at_ vb (u + U - n.toNat) else at_ va U)
    ∧ all (.vsldd h vd va vb n) (fun u => if u + n.toNat < U then at_ va (u + n.toNat) else at_ vb (u + n.toNat - U))
    ∧ puts (.vcmpr h vd va) (fun u => (us[u]?).map (at_ va))
    ∧ all (.vexpd h vd va) (fun u => at_ va (us.countP (· < u)))
    ∧ (h.et ≠ .mx4 → all (.viota h vd true) (fun u => (us.countP (· < u), false)))
    ∧ (h.et ≠ .mx4 → all (.vbcastb h vd va src log2B) (fun u =>
        let i := u / 2 ^ log2B.toNat
        let x := p.elem (c.base va) (etSize src) i
        if vlmax src c.lrows ≤ i then (0, false)
        else (if src = h.et then x else bitsOf (etWidth h.et) (etInt src x), p.elemPsn (c.base va) (etSize src) i)))

/-- R108-R110, R232-R234: an integer reduction gives the sum, maximum or minimum of the active elements, a scan that of
those up to each; floating ones follow the tree, and their roundings' flags are ORed into VFLAGS. -/
def Obligations.ReductionWords : Prop :=
  ∀ (s : State) (p : Proc) (h : VHdr) (vd va : VReg) (k : ScanOp),
    let c := p.wordCtx
    let z := etSize h.et
    let n := vlmax h.et c.lrows
    let on := fun e => p.maskBit h.km e != h.kn
    let x := fun e => etInt h.et (p.elem (c.base va) z e)
    let y := fun e => p.elemPsn (c.base va) z e
    let us := (List.range n).filter on
    let total := fun (k : ScanOp) (l : List Nat) => bitsOf (8 * z) (match k with
      | .sum => (l.map x).sum
      | .max => l.foldl (fun m e => max m (x e)) (etMin h.et)
      | .min => l.foldl (fun m e => min m (x e)) (etMax h.et))
    let leaf := c.leafOf h va true p
    let puts := fun (i : Instr) (f : Nat → Option (Nat × Bool)) (fl : Flags) => s.starts p i →
      ∃ q, s.ran p i q [] ∧ p.sameElse q ∧ q.vflags = fl ∧ p.wroteElems q (c.base vd) c.lrows z n f
    let int := fun (i : Instr) (k : ScanOp) => puts i (fun e => if e = 0 then some (total k us, us.any y) else none) p.vflags
    let flt := fun (i : Instr) (k : ScanOp) (empty : Nat) =>
      let r := reduceGroups (fltOp h.et k) leaf (n / 64)
      puts i (fun e => if e = 0 then some (r.elim (empty, false) (fun r => (r.1, r.2.2))) else none)
        (p.vflags.or (r.elim Flags.none (fun r => r.2.1)))
    int (.vrsum h vd va) .sum ∧ int (.vrmax h vd va) .max ∧ int (.vrmin h vd va) .min
    ∧ flt (.vfrsum h vd va) .sum 0
    ∧ flt (.vfrmax h vd va) .max ((etFmtD h.et).signBit + (etFmtD h.et).infEnc) ∧ flt (.vfrmin h vd va) .min (etFmtD h.et).infEnc
    ∧ puts (.vscan h vd va k) (fun e => if on e then some (total k (us.filter (· ≤ e)), (us.filter (· ≤ e)).any y) else none) p.vflags
    ∧ puts (.vfscan h vd va k)
      (fun e => if on e then (scanAt (fltOp h.et k) leaf e).map (fun r => (r.1, r.2.2)) else none)
      (p.flagged n on (fun e => (scanAt (fltOp h.et k) leaf e).elim Flags.none (fun r => r.2.1)))

/-- R260-R263, R268: vector loads from the scratchpad, first-fault ones among them (VLD, VLDS, VLDX and the three forms of
VLDFF, as memOp reads them): each active unit below the range reads its bytes and the poison of their words, where none
fails and no store of the process is on its way. -/
def Obligations.VectorLoadWords : Prop :=
  ∀ (s : State) (p : Proc) (i : Instr) (o : MemOp), memOp i = some o → o.kind = .load ∨ o.kind = .firstFault → s.starts p i →
    let c := p.wordCtx
    let t := s.tile p.tile
    let units := fun u => u < o.range c.lrows ∧ o.unitActive c p u = true
    let bytes := fun u => memBytes t.spad (o.addr c p u).toNat o.z
    t.sound → t.pendingStores s.cur = [] →
    (∀ v w, o.idx = some (v, w) → c.base v ≠ c.base o.vd ∨ o.z = etSize (idxTy w)) →
    (∀ u, units u → o.idxPsn c p u = false ∧ (o.h.et = .mx4 ∨ (o.addr c p u).toNat % o.z = 0)
      ∧ inDevice (o.addr c p u) = false ∧ p.desc.spadCheck (o.addr c p u) o.z = none) →
    ∃ t' q cv, exec i s = .next t' ∧ s.onlyAt t' s.cur ∧ t'.proc? s.cur = some { q with convoys := p.convoys ++ [cv], nextId := p.nextId + 1 }
      ∧ cv.id = p.nextId ∧ cv.finished = true ∧ cv.gw = [] ∧ p.sameElse q ∧ q.vflags = p.vflags
      ∧ p.wroteUnits q (c.base o.vd) c.lrows o.h.et (fun u => if u < o.range c.lrows ∧ o.unitActive c p u = true then
          some (if o.h.et = .mx4 then leNat ((bytes u).take 1) + 2 ^ 16 * leNat ((bytes u).drop 1) else leNat (bytes u),
            (List.range o.z).any (fun k => t.spadPoison.contains (((o.addr c p u).toNat + k) / 8)))
        else none)

/-- R260-R266, R320-R327: a vector word that accesses device memory (VLD, VLDS, VLDX, the forms of VLDFF, VST, VSTS, VSTX,
VSADD, VAMO, VAMOO, VLDGL and VSTSC, as memOp reads them) sends the request of its active unit for the physical address,
each unit that fails a check stopping it; a scratchpad store enters the FIFO of its slice. R314: where the tile does not know a
page yet, the walk of it is asked for. -/
def Obligations.VectorMemoryWords : Prop :=
  ∀ (s : State) (p : Proc) (i : Instr) (o : MemOp) (u g : Nat), memOp i = some o → s.starts p i →
    let c := p.wordCtx
    let a := o.addr c p u
    let t := s.tile p.tile
    let ends := [a, a + BitVec.ofNat 64 (o.z - 1)]
    let stops := fun (cause : Cause) (addr info : Word) => ∃ t' q, exec i s = .next t' ∧ t'.proc? s.cur = some q ∧ q.st = .trapped
      ∧ q.trap.tcause = BitVec.ofNat 64 (256 + cause.toNat) ∧ q.trap.taddr = addr
      ∧ q.trap.telem = BitVec.ofNat 64 (64 * g) &&& 0xFFFFFFFF ∧ q.trap.tinfo = info ||| BitVec.ofNat 64 (o.elemOf u)
    g < groupsOf o.h.et c.lrows → (∀ k, o.unitsOf c p k = if k = g then [u] else []) →
    (o.idxPsn c p u = true → o.consumes = true → stops 0x40 0 0)
    ∧ (o.idxPsn c p u = false → o.h.et ≠ .mx4 → a.toNat % o.z ≠ 0 → stops 0x08 a 0)
    ∧ (o.idxPsn c p u = false → (o.h.et = .mx4 ∨ a.toNat % o.z = 0) →
      (inDevice a = false → o.atomic = true → s.unknown p ends = [] → stops 0x70 a 0)
      ∧ (inDevice a = false → o.atomic = false → s.unknown p ends = [] → ∀ e, p.desc.spadCheck a o.z = some e → stops e a 0)
      ∧ (inDevice a = true → canonDev a = false → s.unknown p ends = [] → stops 0x24 a (transInfo 0 o.access))
      ∧ (∀ b l, s.unknown p ends = b :: l → ∃ t' cv, exec i s = .next t' ∧ s.onlyAt t' s.cur ∧ cv.id = p.nextId ∧ cv.finished = false
        ∧ t'.proc? s.cur = some { p with convoys := p.convoys ++ [cv], nextId := p.nextId + 1 }
        ∧ ((t.misses.length < 64 ∨ pageOf b ∈ t.misses) → pageOf b ∈ (t'.tile p.tile).misses ∧ pageOf b ∈ (t'.tile p.tile).wanted))
      ∧ (inDevice a = true → canonDev a = true → s.unknown p ends = [] → ∀ e level, s.tileTranslate p.tile p.tenant a.toNat o.access = .error (e, level) →
        stops e a (transInfo level o.access))
      ∧ (inDevice a = false → o.kind = .store → p.desc.spadCheck a o.z = none → a.toNat % 64 + o.z ≤ 64 →
        (t.fifo s.cur (a.toNat / 64 % 4)).length < 8 → ∃ t' cv e, exec i s = .next t' ∧ s.onlyAt t' s.cur
          ∧ t'.proc? s.cur = some { p with convoys := p.convoys ++ [cv], nextId := p.nextId + 1, storeSeq := p.storeSeq + 1 }
          ∧ cv.id = p.nextId ∧ cv.finished = true
          ∧ (t'.tile p.tile).fifo s.cur (a.toNat / 64 % 4) = t.fifo s.cur (a.toNat / 64 % 4) ++ [e]
          ∧ e.line = a.toNat / 64 * 64 ∧ e.seq = p.storeSeq ∧ e.vec = true
          ∧ e.enable = lineEnable a.toNat o.z
          ∧ e.bytes = BitVec.ofNat 512 (leNat (o.unitBytes c p u).1 * 2 ^ (8 * (a.toNat % 64))))
      ∧ (inDevice a = true → canonDev a = true → a.toNat % 64 + o.z ≤ 64 → s.unknown p ends = [] → t.denied = [] → ∀ pa,
        s.tileTranslate p.tile p.tenant a.toNat o.access = .ok (.phys pa) →
        ∃ t' cv, exec i s = .next t' ∧ s.onlyAt t' s.cur ∧ t'.tiles = s.tiles ∧ t'.chans = s.chans
          ∧ t'.proc? s.cur = some { p with convoys := p.convoys ++ [cv], nextId := p.nextId + 1 } ∧ cv.id = p.nextId
          ∧ (if o.kind = .store then s.nextReq ∈ cv.acks else ∃ r ∈ cv.reqs, r.id = s.nextReq ∧ r.reply = none)
          ∧ t'.flight = s.flight ++ [{
              id := s.nextReq, src := .proc s.cur, pa, prio := p.eff, age := s.reqAge
              kind := if o.kind = .store then .write (o.unitBytes c p u).1 (List.replicate o.z (o.unitBytes c p u).2)
                else o.request c p u }]))

/-- R157, R167, R168: VSEND sends one token for every live chunk, behind the port's scalar tokens that wait to be launched, and
spends its credits, and VRECV writes the active elements of
every live chunk from the tokens it takes; a tag that is not ordinary stops VRECV. -/
def Obligations.VectorChannelWords : Prop :=
  ∀ (s : State) (p : Proc) (h : VHdr) (va : VReg) (q : Port) (tag : BitVec 7) (ch : Nat) (x : Chan),
    let c := p.wordCtx
    let z := etSize h.et
    let chunks := (List.range (groupsOf h.et c.lrows)).flatMap (c.liveChunks h p)
    let toks := chunks.map (c.chunkToken h p va tag)
    let n := chunks.length
    let got := (x.buffer.take n).map (·.2)
    let done := fun (i : Instr) (p' : Proc) (x' : Chan) => ∃ t cv, exec i s = .next t ∧ s.onlyAt t s.cur ∧ t.tiles = s.tiles
      ∧ t.proc? s.cur = some { p' with convoys := p.convoys ++ [cv], nextId := p.nextId + 1 }
      ∧ cv.id = p.nextId ∧ cv.finished = true ∧ t.chan? ch = some x'
    (s.tile p.tile).denied = [] →
    (s.starts p (.vsend h va q tag) → p.port q.toNat = some (ch, true) → s.chan? ch = some x →
      s.consumerRetired x = false →
      ∀ k r, x.prodOf (.proc s.cur q.toNat) = some k → x.prods[k]? = some r → n ≤ r.credits →
        let behind := p.launches.any (fun l => l.chan == ch && l.prod == k)
        done (.vsend h va q tag) (if behind then { p with launches := p.launches ++ toks.map (fun t => { chan := ch, prod := k, token := t, after := 0 }) }
            else p) { x with prods := x.prods.set k { r with
          credits := r.credits - n, sent := r.sent + BitVec.ofNat 32 n, flight := if behind then r.flight else r.flight ++ toks } })
    ∧ (s.starts p (.vrecv h va q) → p.port q.toNat = some (ch, false) → s.chan? ch = some x → p.triggered q.toNat = false →
      n ≤ x.buffer.length → (∀ t ∈ got, t.tag = 0) → ∃ (p' : Proc) (x' : Chan), done (.vrecv h va q) p' x' ∧ p.sameElse p'
        ∧ p'.vflags = p.vflags
        ∧ p.wroteElems p' (c.base va) c.lrows z (vlmax h.et c.lrows) (fun e =>
          ((chunks.zip got).find? (fun y => y.1.2.contains e)).map (fun y =>
            (leNat y.2.data / 2 ^ (8 * z * (e % (64 / z))) % 2 ^ (8 * z), (y.2.poison[e % (64 / z) * z / 8]?).getD false)))
        ∧ x'.buffer ++ x'.spill = (x.buffer ++ x.spill).drop n ∧ x'.consumed = x.consumed + BitVec.ofNat _ n ∧ x'.written = x.written)
    ∧ (s.starts p (.vrecv h va q) → p.port q.toNat = some (ch, false) → s.chan? ch = some x → p.triggered q.toNat = false →
      n ≤ x.buffer.length → ∀ (j : Nat) (d : Nat × List Nat) (t : Token), chunks[j]? = some d → got[j]? = some t → (∀ i < j, ∀ y : Token, got[i]? = some y → y.tag = 0) → t.tag ≠ 0 →
      ∃ u r, exec (.vrecv h va q) s = .next u ∧ u.proc? s.cur = some r ∧ r.st = .trapped ∧ r.trap.telem = BitVec.ofNat 64 (64 * (d.1 / z)) &&& 0xFFFFFFFF
        ∧ r.trap.tcause = if t.tag = 128 then 0x132 else 0x131)

/-- R271-R273, R278-R289: a matrix word is handed to the matrix unit of the tile, which carries the oldest one out: MZERO
clears a tile, MOPA and MOPS add or subtract the granted products step by step, MREAD and MWRITE move elements, MSAVE and
MLOAD ask for every 64-byte line. -/
def Obligations.MatrixWords : Prop :=
  ∀ (s : State) (p : Proc) (h : VHdr) (acc : BitVec 2) (va : VReg) (sl : BitVec 1) (m0 : BitVec 6) (rm : RMode) (ord : Ord)
      (vc : GReg) (disp : BitVec 16) (scale ch : Bool),
    let c := p.wordCtx
    let d := acc.toNat
    let el := fun (x : Proc) (m n : Nat) => x.accAt (accKey d m n)
    let kept := fun (q : Proc) => ({ q with acc := p.acc, accPoison := p.accPoison, vflags := p.vflags } = p)
      ∧ ∀ k, k / 4096 ≠ d → q.accAt k = p.accAt k
    let runs := fun (i : Instr) (good : State → Proc → Prop) => s.starts p i → (s.tile p.tile).matrix = [] → s.runs p = true →
      ∃ t cv, exec i s = .next t ∧ t.proc? s.cur = some { p with convoys := p.convoys ++ [cv], nextId := p.nextId + 1 }
        ∧ s.onlyAt t s.cur ∧ (t.tile p.tile).matrix = [(s.cur, p.nextId)] ∧ cv.id = p.nextId ∧ cv.members = [i]
        ∧ ∃ u, exec (.matrixMemberStart p.tile) t = .next u ∧ good u { p with convoys := p.convoys ++ [cv], nextId := p.nextId + 1 }
    let done := fun (f : Proc → Prop) (u : State) (r : Proc) => ∃ (q : Proc) (cv : Convoy), u.proc? s.cur = some { q with convoys := p.convoys ++ [cv], nextId := r.nextId }
      ∧ cv.id = p.nextId ∧ cv.finished = true ∧ f { q with convoys := p.convoys, nextId := p.nextId }
    let rowOf := fun (e : Nat) => m0.toNat + e / 64
    let takes := fun (e : Nat) => rowOf e < min 64 c.grant.m ∧ e % 64 < c.grant.n ∧ e < vlmax h.et c.lrows
      ∧ c.active h p (vlmax h.et c.lrows) e = true
    let products := fun (neg : Bool) => done (fun q => kept q ∧ ∀ m < 64, ∀ n < 64, el q m n =
      if m < c.grant.m ∧ n < c.grant.n then
        let x := ((List.range c.grant.k).foldl (c.matStep h va sl.toNat neg p m n) (el p m n, Flags.none)).1
        (x.1 % 2 ^ 56, x.2)
      else el p m n)
    let asks := fun (write : Bool) (g : MTarget) (u : State) (_ : Proc) => ∀ f : Nat → Nat,
      (c.matAddr vc disp).toNat % 64 = 0 →
      (∀ j < g.bytes / 64, let a := c.matAddr vc disp + BitVec.ofNat 64 (64 * j)
        inDevice a = true ∧ canonDev a = true ∧ s.unknown p [a] = []
          ∧ s.tileTranslate p.tile p.tenant a.toNat (if write then kWrite else kRead) = .ok (.phys (f j))) →
      p.pend ≠ some .hold →
      u.flight = s.flight ++ (List.range (g.bytes / 64)).map (fun j => {
        id := s.nextReq + j, src := .proc s.cur, pa := f j, prio := p.eff, age := s.reqAge + j
        kind := if write then .write ((g.line p (64 * j) 64).map (·.1)) ((g.line p (64 * j) 64).map (·.2)) else .read 64 })
    runs (.mzero ch acc) (done (fun q => kept q ∧ q.vflags = p.vflags ∧ ∀ m < 64, ∀ n < 64, el q m n = (0, false)))
    ∧ runs (.mopa h acc va sl) (products false) ∧ runs (.mops h acc va sl) (products true)
    ∧ runs (.mread h acc va m0 rm) (done (fun q => p.sameElse q
      ∧ p.wroteElems q (c.base va) c.lrows (etSize h.et) (vlmax h.et c.lrows) (fun e => if takes e then
          some ((readAcc h.et rm (srBits c.seed va.toNat e) (el p (rowOf e) (e % 64)).1).1 % 2 ^ etWidth h.et,
            (el p (rowOf e) (e % 64)).2)
        else none)))
    ∧ runs (.mwrite h acc va m0) (done (fun q => kept q ∧ q.vflags = p.vflags ∧ ∀ m < 64, ∀ n < 64,
        let e := 64 * (m - m0.toNat) + n
        el q m n = if m0.toNat ≤ m ∧ takes e then
          (writeAcc h.et (p.elem (c.base va) (etSize h.et) e) % 2 ^ 56, p.elemPsn (c.base va) (etSize h.et) e) else el p m n))
    ∧ runs (.msaveAcc ch ord acc vc disp) (asks true (.tile d)) ∧ runs (.mloadAcc ch ord acc vc disp) (asks false (.tile d))
    ∧ runs (.msaveLatch ch ord sl scale vc disp) (asks true (.latch sl.toNat scale))
    ∧ runs (.mloadLatch ch ord sl scale vc disp) (asks false (.latch sl.toNat scale))

/-- R189, R192, R290, R415, R416: VSTOP ends the block that is running, VNOP does nothing, VSIG starts the block's CRC
where checking is on, and MRING waits for the round of its ring. R291-R293, R353, R357-R359: in a round each member takes
the latch of the member before it, as it stood; a loop entry becomes a task, or is over with no iterations; an iteration
consumes its WAIT bits and starts the body, its end sets its SET bits once its scratchpad stores have been performed (R369), and
the last one ends the task. -/
def Obligations.BlockAndLoopTurns : Prop :=
  (∀ (s : State) (p : Proc) (ch : Bool) (sig : BitVec 16) (sl : BitVec 1), s.proc? s.cur = some p →
     exec (.vnop ch) s = .next s
     ∧ (∀ e, p.currentEntry = some e →
       (∃ q, exec .vstop s = .next (s.setProc s.cur q) ∧ (∀ x ∈ q.queue, x.id = e.id → x.stopped = true)
         ∧ { q with queue := p.queue } = p ∧ ∀ x ∈ p.queue, x.id ≠ e.id → x ∈ q.queue)
       ∧ (e.sig.checking = false → exec (.vsig sig) s = .next s)
       ∧ (e.sig.checking = true → ∃ q, exec (.vsig sig) s = .next (s.setProc s.cur q) ∧ { q with queue := p.queue } = p
         ∧ q.currentEntry = some { e with sig := { e.sig with want := sig, crc := 0xFFFF } }
         ∧ ∀ x ∈ p.queue, x.id ≠ e.id → x ∈ q.queue))
     ∧ (s.startCause s.cur p p.snapNow [.mring sl] = none →
       exec (.mring sl) s = .next (s.setProc s.cur { p with ringWait := some sl.toNat }))
     ∧ ∀ cause, s.startCause s.cur p p.snapNow [.mring sl] = some cause → ∃ t q, exec (.mring sl) s = .next t
       ∧ t.proc? s.cur = some q ∧ q.st = .trapped ∧ q.trap.tcause = BitVec.ofNat 64 (256 + cause.toNat))
  ∧ (∀ (s : State) (pid : Nat) (p : Proc) (sl : BitVec 1), s.proc? pid = some p →
       (∀ ring l, s.rings[ring]? = some l → l.Nodup →
         (∀ k ∈ l, ∃ q, s.proc? k = some q ∧ q.ringWait = some sl.toNat ∧ s.runs q = true ∧ (s.ringOwner q).isSome = true) →
         ∃ u, exec (.mringRoundBegin ring sl) s = .next u ∧ u.mem = s.mem ∧ (∀ k, k ∉ l → u.proc? k = s.proc? k)
           ∧ ∀ j < l.length, ∀ a b, l[j]? = some a → l[(j + l.length - 1) % l.length]? = some b → ∃ q r x, u.proc? a = some q ∧ s.proc? b = some r
             ∧ (∀ k < 4352, q.latchByte sl.toNat k = r.latchByte sl.toNat k ∧ q.latchPsn sl.toNat k = r.latchPsn sl.toNat k)
             ∧ q.ringWait = none ∧ x ∈ q.convoys ∧ x.members = [.mring sl] ∧ x.finished = true)
       ∧ (∀ cv, p.convoys = [cv] → cv.members = [.mring sl] → cv.stopped = false → ∃ u q, exec (.mringRoundEnd pid sl) s = .next u
         ∧ s.onlyAt u pid ∧ u.proc? pid = some q ∧ q.convoys = [] ∧ q.latch = p.latch ∧ q.pc = p.pc)
       ∧ (∀ e trip step wait set strip0, p.currentEntry = some e → e.kind = .loop trip step wait set strip0 → s.runs p = true →
         let pages := s.unknown p (s.bodyAddrs p e.addr 32)
         (pages ≠ [] → exec (.loopRegister pid) s = .next (s.want p pages))
         ∧ (pages = [] → ∀ v, s.loopBody p e = .error v → ∃ u q, exec (.loopRegister pid) s = .next u ∧ u.proc? pid = some q ∧ q.st = .trapped
           ∧ q.trap.tcause = BitVec.ofNat 64 (512 + v.cause.toNat) ∧ q.trap.taddr = v.addr)
         ∧ (pages = [] → ∀ l, s.loopBody p e = .ok l →
           let fits := (s.tile p.tile).loops.length < 4 ∧ ((s.tile p.tile).loops.map (·.2.2)).sum + l.length ≤ 128
           ∃ u q, exec (.loopRegister pid) s = .next u ∧ s.onlyAt u pid ∧ u.proc? pid = some q
             ∧ q.queue.map (·.id) = (p.queue.map (·.id)).filter (· != e.id)
             ∧ (trip = 0 → q.pending = p.pending.filter (fun x => x.2 != e.id) ∧ u.tiles = s.tiles)
             ∧ (trip ≠ 0 → q.tasks = p.tasks ++ [{
                 id := e.id, trip, iter := 0, step, wait, set, strip0, running := false, captured := decide fits, body := e }]
               ∧ (u.tile p.tile).loops = (s.tile p.tile).loops ++ if fits then [(pid, e.id, l.length)] else [])))
       ∧ (∀ t, p.tasks = [t] → s.runs p = true →
         (t.running = false → t.iter < t.trip → (s.tile p.tile).evTest (p.tileMask t.wait) = true → ∃ u q r,
           exec (.iterationStart pid t.id) s = .next u ∧ s.onlyAt u pid ∧ u.proc? pid = some q ∧ q.tasks = [r]
           ∧ r.running = true ∧ r.iter = t.iter ∧ r.body.vpc = t.body.addr ∧ r.body.stopped = false
           ∧ (u.tile p.tile).events = (s.tile p.tile).events &&& ~~~p.tileMask t.wait)
         ∧ (t.set ≠ 0 → (s.tile p.tile).vecDrained pid = false → exec (.iterationRetire pid t.id) s = .next s)
         ∧ (t.running = true → t.body.stopped = true → p.convoys = [] → (t.set = 0 ∨ (s.tile p.tile).vecDrained pid = true) → ∃ u q, exec (.iterationRetire pid t.id) s = .next u
           ∧ s.onlyAt u pid ∧ u.proc? pid = some q ∧ (u.tile p.tile).events = (s.tile p.tile).events ||| p.tileMask t.set
           ∧ (t.iter + 1 < t.trip → q.tasks = [{ t with running := false, iter := t.iter + 1 }])
           ∧ (t.trip ≤ t.iter + 1 → q.tasks = [] ∧ q.pending = p.pending.filter (fun x => x.2 != t.id)
             ∧ ∀ x ∈ (u.tile p.tile).loops, ¬(x.1 = pid ∧ x.2.1 = t.id)))))

/-! ## What happens between the words: the vector unit (R190, R197, R265, R268, R278-R280, R291, R292, R353, R357-R359) -/

/-- R190, R197, R265, R268, R279: the one open move of highest effective priority is made, here the start of a block's
next convoy, a matrix convoy; replies write the group that waited for them; a convoy that has finished retires, and only
then writes its general registers and FFE. -/
def Obligations.ConvoyTurns : Prop :=
  ∀ (s : State) (tile pid cid : Nat) (p : Proc) (cv : Convoy), s.proc? pid = some p →
    (s.tileMoves tile = [] → exec (.convoyStart tile) s = .next (s.modTile tile (fun t => { t with asking := [] })))
    ∧ (∀ e ws l g, (s.tileMoves tile).filter (fun x => decide (p.eff ≤ x.1)) = [(p.eff, pid, .start e.id false)] →
      p.ownerEntry e.id false = some e → s.nextConvoy p e = .ok (ws, l) → e.sig.words ws = (g, true) →
      s.startCause pid p e.snap l = none → l.any isMatrix = true → s.unknown p (s.convoyWords p e) = [] → s.memErrors = [] → ∃ (u : State) (q : Proc) (x : Convoy),
        exec (.convoyStart tile) s = .next u ∧ s.onlyAt u pid
        ∧ u.proc? pid = some { q with convoys := p.convoys ++ [x], nextId := p.nextId + 1 }
        ∧ q.ownerEntry e.id false = some { e with vpc := e.vpc + BitVec.ofNat 64 (8 * ws.length), sig := g }
        ∧ x.id = p.nextId ∧ x.members = l ∧ x.snap = e.snap ∧ x.finished = false
        ∧ (u.tile p.tile).matrix = (s.tile p.tile).matrix ++ [(pid, p.nextId)])
    ∧ (∀ i o a rep, p.convoys = [cv] → cv.id = cid → cv.members = [i] → memOp i = some o → o.kind = .load →
      cv.finished = false → cv.matrix = false → cv.member = 0 → cv.acks = [] → cv.held = [] → cv.strike = none →
      s.replies = [rep] → rep.cause = none →
      cv.reqs = [{ id := rep.id, group := cv.group, member := 0, unit := a, piece := 0, store := false, remote := false
                   reply := none }] →
      let c := p.ctxOf cv
      let w := o.addr c p a
      cv.group < groupsOf o.h.et c.lrows → o.unitsOf c p cv.group = [a] → o.idxPsn c p a = false →
      (o.h.et = .mx4 ∨ w.toNat % o.z = 0) → inDevice w = true → canonDev w = true → w.toNat % 64 + o.z ≤ 64 →
      s.unknown p [w, w + BitVec.ofNat 64 (o.z - 1)] = [] →
      (∃ pa, s.tileTranslate p.tile p.tenant w.toNat kRead = .ok (.phys pa)) →
      ∃ (u : State) (q : Proc) (x : Convoy), exec (.vectorMemoryReply pid cid) s = .next u ∧ s.onlyAt u pid ∧ u.replies = []
        ∧ u.proc? pid = some { q with convoys := [x] } ∧ x.reqs = [] ∧ x.id = cid
        ∧ p.wroteUnits q (c.base o.vd) c.lrows o.h.et (fun b => if b = a then
            some (if o.h.et = .mx4 then leNat (rep.bytes.take 1) + 2 ^ 16 * leNat (rep.bytes.drop 1)
              else leNat rep.bytes, rep.poison.contains true) else none))
    ∧ (p.convoy? cid = some cv → cv.retirable = true → cv.task = false →
      let retired := fun (u : State) => s.onlyAt u pid ∧ ∃ q, u.proc? pid = some q ∧ q.pc = p.pc ∧ q.rows = p.rows
        ∧ (q.convoys = p.convoys.filter (fun x => x.id != cid))
        ∧ (cv.gw = [] → q.g = p.g ∧ q.pending = p.pending)
        ∧ (∀ r v, cv.gw = [(r, v)] → 0 < r → r < 32 → q.g = p.g.setIfInBounds r v ∧ q.pending = p.pending.erase (r, cv.entry))
        ∧ q.ffe = (cv.ffeValue (p.ctxOf cv)).elim p.ffe (BitVec.ofNat 64)
      (cv.matrix = false → (∀ sl, Instr.mring sl ∉ cv.members) → ∃ u, exec (.convoyRetire pid cid) s = .next u ∧ retired u)
      ∧ (s.matrixHead tile = some (pid, p, cv) → ∃ u, exec (.matrixConvoyRetire tile) s = .next u ∧ retired u
        ∧ (u.tile tile).matrix = (s.tile tile).matrix.filter (fun x => x != (pid, cid))))

/-! ## Memory, translation and the scratchpad between the words (ch. 08, 09, 10) -/

/-- R114, R132, R298-R304, R307, R310, R313, R314, R316, R318: SERVER_ACCESS performs a queued request at one instant and
replies; REFRESH_SCRUB scrubs its column; WALK has a free walk unit take a pending walk and ask for its first entry, or
deals with the entry that has been read: the walk ends, goes on at the table named, or reads the first leaf of a run;
WALK_COMPLETE fills the TLB and lets the access go on or trap; MEMORY_REPLY, the reply, its error or the poison a load would
consume, ends the wait. -/
def Obligations.MemoryTurns : Prop :=
  ∀ (s : State) (pid k n row die : Nat) (p : Proc) (r : Req) (b : List Byte) (psn : List Bool) (op : AOp) (x e : Nat),
    let served := fun (req : ReqKind) (good : State → Reply → Prop) => s.memErrors = [] → s.queued = [{ r with kind := req }] →
      r.src = .proc pid → k = serverOf r.pa → ∃ u rep, exec (.serverAccess k) s = .next u ∧ u.procs = s.procs ∧ u.queued = []
        ∧ u.replies = s.replies ++ [rep] ∧ rep.id = r.id ∧ rep.src = .proc pid ∧ u.flight = s.flight ∧ good u rep
    let wrote := fun (u : State) (d : List Byte) => ∀ a, memByte u.mem a
      = if r.pa ≤ a ∧ a < r.pa + d.length then d.getD (a - r.pa) 0 else memByte s.mem a
    let old := memBytes s.mem r.pa n
    let pold := s.poisonAt r.pa n
    served (.read n) (fun u rep => u.mem = s.mem ∧ rep.bytes = old ∧ rep.poison = pold ∧ rep.cause = none)
    ∧ served (.write b psn) (fun u rep => rep.cause = none ∧ wrote u b)
    ∧ served (.amo op n x e) (fun u rep =>
      (pold.contains true = true → u.mem = s.mem ∧ rep.cause = some 0x40)
      ∧ (pold.contains true = false → rep.cause = none ∧ rep.bytes = old
        ∧ if op = .cas ∧ leNat old ≠ e then u.mem = s.mem ∧ rep.ok = false
          else rep.ok = true ∧ wrote u (leBytes n (amoOp op (8 * n) (leNat old) x))))
    ∧ (∃ u, exec (.refreshScrub k row) s = .next u ∧ u.procs = s.procs ∧ (u.server k).refreshed = (s.server k).refreshed + 1
      ∧ let pa := serverPa k (row % serverRows * 1024 + (s.server k).refreshed / serverRows % 16 * 64)
        (∀ h ∈ [pa / 32, pa / 32 + 1], mget u.memErrors h = none) ∧ (∀ h, h ≠ pa / 32 → h ≠ pa / 32 + 1 → mget u.memErrors h = mget s.memErrors h)
        ∧ ((∀ h ∈ [pa / 32, pa / 32 + 1], mget s.memErrors h ≠ some true) → u.mem = s.mem ∧ u.memPoison = s.memPoison))
    ∧ (∀ w t, die < 4 → vget s.dies die Die.init = { walks := [w], cache := [] } → w.unit = none → w.result = none →
      mget s.tenants w.tenant = some t → ∃ u, exec (.walk die) s = .next u ∧ u.procs = s.procs ∧ u.mem = s.mem
        ∧ (vget u.dies die Die.init).walks = [{ w with unit := some 0, table := t.root, level := 1, run := none, again := false }]
        ∧ u.flight = s.flight ++ [{ id := s.nextReq, src := .walk die 0, pa := t.root + 8 * levelIndex (w.vpage * 4096) 1
                                    kind := .read 8, prio := s.walkPrio w, age := s.reqAge }])
    ∧ (∀ w n rep, die < 4 → vget s.dies die Die.init = { walks := [w], cache := [] } → w.unit = some n → w.result = none →
      w.again = false → s.replies = [rep] → rep.src = .walk die n →
      let got := readPte (leNat rep.bytes) w.level
      let at_ := fun (y : Walk) (asks : Option Nat) => ∃ u, exec (.walk die) s = .next u ∧ u.procs = s.procs ∧ u.mem = s.mem
        ∧ u.replies = [] ∧ (vget u.dies die Die.init).walks = [y]
        ∧ u.flight.map (fun q => (q.src, q.pa, q.kind)) = s.flight.map (fun q => (q.src, q.pa, q.kind))
          ++ (asks.map (fun pa => (Source.walk die n, pa, ReqKind.read 8))).toList
      let ends := fun (l : Leaf) => at_ { w with result := some l } none
      let i := levelIndex (w.vpage * 4096) w.level
      (rep.poison.any id = true → ends (.bad 0x2A w.level))
      ∧ (rep.poison.any id = false → (∀ c, got = .fault c → ends (.bad c w.level))
        ∧ (∀ t, got = .pointer t → w.run = none → at_ { w with unit := some n, table := t, level := w.level + 1, run := none, again := false }
          (some (t + 8 * levelIndex (w.vpage * 4096) (w.level + 1))))
        ∧ (∀ size l, got = .leaf size l → w.run = none →
          let j := i - i % runLeaves size
          (j = i → ends l) ∧ (j ≠ i → at_ { w with run := some size } (some (w.table + 8 * j))))
        ∧ (∀ size, w.run = some size → (∀ t, got = .pointer t → ends (.bad 0x28 w.level))
          ∧ ∀ size' l, got = .leaf size' l → ends (if size' = size then l else .bad 0x28 w.level))))
    ∧ (∀ w leaf kd a va kind, die < 4 → (vget s.dies die Die.init).walks = [w] → w.result = some leaf → s.proc? pid = some p →
      w.tiles = [p.tile] → s.waitingMiss p.tile = [pid] → s.waitingFor p.tile w.vpage = [pid] → p.pend = some (.walk va kind) →
      p.park = some kd → p.accessOf kd.instr = some a → ∃ u q, exec (.walkComplete die) s = .next u ∧ s.onlyAt u pid
        ∧ u.proc? pid = some q ∧ (vget u.dies die Die.init).walks = []
        ∧ (u.tile p.tile).tlb = tlbFill (s.tile p.tile).tlb (w.vpage * 4096) leaf ∧ w.vpage ∉ (u.tile p.tile).misses
        ∧ w.vpage ∉ (u.tile p.tile).wanted
        ∧ (∀ pa, leaf.access va kind = .ok (.phys pa) → q = { p with pend := some (.sent s.nextReq) }
          ∧ u.flight = s.flight ++ [{ id := s.nextReq, src := .proc pid, pa, kind := a.req, prio := p.eff, age := s.reqAge }])
        ∧ (∀ c level, leaf.access va kind = .error (c, level) → q.st = .trapped ∧ q.trap.tcause = c.setWidth 64 ∧ q.trap.taddr = a.va
          ∧ q.trap.tinfo = BitVec.ofNat 64 (level * 2 ^ 32 + kind * 2 ^ 36)))
    ∧ (∀ kd a rep, s.proc? pid = some p → p.park = some kd → p.pend = some (.sent rep.id) → p.accessOf kd.instr = some a →
      recordBytes kd.instr = 0 → p.st ≠ .trapped → s.replies = [rep] → ∃ u q, exec (.memoryReply pid) s = .next u
        ∧ s.onlyAt u pid ∧ u.replies = [] ∧ u.proc? pid = some q
        ∧ (∀ c, rep.cause = some c → q.st = .trapped ∧ q.trap.tcause = c.setWidth 64 ∧ q.trap.taddr = a.va)
        ∧ (rep.cause = none → a.kind = kRead → rep.poison.contains true = true → q.st = .trapped ∧ q.trap.tcause = 0x40)
        ∧ (rep.cause = none → (a.kind ≠ kRead ∨ rep.poison.contains true = false) → q = { p with pend := some (.done rep) }))

/-- R239, R242-R246, R249, R250, R252, R253: in a slice without errors the head of a store FIFO writes the bytes it
enables and no other; a parity update XORs the oldest stale row into the understudy; a lost word that a store
needs is the XOR of its row in the other banks and the understudy, and so is what a sweep copies; a parked load reads its bytes. -/
def Obligations.ScratchpadTurns : Prop :=
  ∀ (s : State) (tile pid : Nat) (slice : BitVec 2) (p : Proc),
    let t := s.tile tile
    let k := slice.toNat
    let x := t.slice k
    let others := fun (row w b : Nat) =>
      (((t.xorBanks k row w b 0 8).1 ^^^ (t.underAt (underWord k row w)).1) % 2 ^ 64,
        (t.xorBanks k row w b 0 8).2 != (t.underAt (underWord k row w)).2)
    (∀ e rest, s.proc? pid = some p → p.tile = tile → p.pend = none → p.queries = [] → t.sound → t.fifo pid k = e :: rest →
      t.headReady pid e = true → e.line % 64 = 0 → spSlice e.line = k → ∃ u, exec (.spadStoreGrant tile pid slice) s = .next u
        ∧ s.onlyAt u pid ∧ u.proc? pid = some p ∧ (u.tile tile).fifo pid k = rest
        ∧ ∀ a, memByte (u.tile tile).spad a = if a / 64 * 64 = e.line ∧ e.enable.getLsbD (a % 64) = true then
            e.bytes.extractLsb' (8 * (a % 64)) 8 else memByte t.spad a)
    ∧ (∀ e rest, x.stale = e :: rest → (∀ w < 8, mget t.errors (underKey (underWord k e.row w)) = none) → ∃ u, exec (.parityUpdate tile slice) s = .next u ∧ u.procs = s.procs ∧ u.mem = s.mem
      ∧ ((u.tile tile).slice k).stale = rest ∧ (u.tile tile).spad = t.spad
      ∧ ∀ w < 8, (u.tile tile).underAt (underWord k e.row w)
        = ((t.underAt (underWord k e.row w)).1 ^^^ (e.delta.extractLsb' (64 * w) 64).toNat,
          (t.underAt (underWord k e.row w)).2 != e.pdelta.getLsbD w))
    ∧ (∀ w < 262144, t.errors = [(w, true)] → spSlice (8 * w) = k → x.st = .normal → x.stale = [] →
      s.loaderOf tile w = none → t.storeNeeds w = true → ∃ u, exec (.errorReconstruction tile w) s = .next u ∧ u.procs = s.procs ∧ u.mem = s.mem ∧ (u.tile tile).errors = []
        ∧ (u.tile tile).dataAt w = others (spRow (8 * w)) (spWord (8 * w)) (spBank (8 * w)))
    ∧ (∀ b row, x.st = .sweeping b row → (∃ u, exec (.sweepPromote tile slice) s = .next u ∧ u.procs = s.procs ∧ u.mem = s.mem
        ∧ (u.tile tile).slice k = { x with promoted := true })
      ∧ ((∀ e ∈ x.stale, e.row ≠ row) → t.errors = [] → ∃ u, exec (.sweepStep tile slice) s = .next u ∧ u.procs = s.procs
        ∧ u.mem = s.mem ∧ (u.tile tile).spad = t.spad
        ∧ (u.tile tile).slice k = { x with st := if 1024 ≤ row + 1 then .degraded b else .sweeping b (row + 1), promoted := false }
        ∧ ∀ w < 8, (u.tile tile).underAt (underWord k row w) = others row w b))
    ∧ (∀ kd a, s.proc? pid = some p → p.tile = tile → p.park = some kd → p.pend = some .spad → p.accessOf kd.instr = some a →
      a.kind = kRead → recordBytes kd.instr = 0 → inDevice a.va = false → t.overlaps pid a.va.toNat a.n = false → t.sound →
      (∀ j < a.n, t.spadPoison.contains ((a.va.toNat + j) / 8) = false) → ∃ u r, exec (.scratchpadLoadGrant pid) s = .next u
        ∧ s.onlyAt u pid ∧ u.proc? pid = some { p with pend := some (.done r) } ∧ r.bytes = memBytes t.spad a.va.toNat a.n
        ∧ r.cause = none)

/-! ## Channels, the stage manager, waits (ch. 04, 05, 09, 11, 13) -/

/-- R114, R155, R156, R165, R178, R179, R353, R425: a token leaves its launch queue once earlier stores are performed, and
reaches the consumer's buffer, or spill once that is full; credits come back one for one; packets of a circuit count in
sequence order; a parked process whose condition holds becomes Ready, and an EVWAIT is over then. -/
def Obligations.ChannelTurns : Prop :=
  ∀ (s : State) (pid c k : Nat) (p : Proc) (x : Chan) (d : Producer),
    let only := fun (u : State) (y : Chan) => u.chan? c = some y ∧ (∀ j, j ≠ c → u.chan? j = s.chan? j) ∧ u.procs = s.procs
      ∧ u.mem = s.mem ∧ u.tiles = s.tiles
    let put := fun (y : Chan) (k : Nat) (t : Token) => if y.spill = [] ∧ y.buffer.length < y.slots
      then { y with buffer := y.buffer ++ [(k, t)], written := y.written + 1 }
      else { y with spill := y.spill ++ [(k, t)], written := y.written + 1 }
    (∀ l rest, s.proc? pid = some p → p.launches = l :: rest → l.chan = c → l.prod = k → s.chan? c = some x → x.prods[k]? = some d →
      ((s.tile p.tile).drained pid l.after = false → exec (.tokenLaunch pid) s = .next s)
      ∧ ((s.tile p.tile).drained pid l.after = true → ∃ u, exec (.tokenLaunch pid) s = .next u ∧ s.onlyAt u pid
        ∧ u.proc? pid = some { p with launches := rest }
        ∧ u.chan? c = some { x with prods := x.prods.set k { d with flight := d.flight ++ [l.token] } }))
    ∧ (s.chan? c = some x → x.prods[k]? = some d →
      (x.consumerAway = false → ∀ t rest, d.flight = t :: rest → ∃ u, exec (.tokenArrival c k) s = .next u
        ∧ only u (put { x with prods := x.prods.set k { d with flight := rest } } k t))
      ∧ (∀ pkg ci t rest, x.consumer = .remote pkg → x.circuitTo pkg = some ci → d.flight = t :: rest → Ctx.circuit c ∉ s.spilled →
        ∃ u y, exec (.tokenArrival c k) s = .next u ∧ u.chan? c = some y ∧ y.circuitTo pkg = some { ci with sendSeq := ci.sendSeq + 1 }
          ∧ y.prods[k]? = some { d with flight := rest } ∧ u.procs = s.procs
          ∧ u.vout = s.vout ++ [.token pkg { handle := x.handle c, prod := k, seq := ci.sendSeq, data := t.data, tag := t.tag, poison := t.poisonByte }])
      ∧ ((∀ pkg, d.src ≠ .remote pkg) → 0 < d.returning → ∃ u, exec (.creditArrival c k) s = .next u ∧ only u { x with prods := x.prods.set k { d with
          returning := d.returning - 1, credits := d.credits + 1, received := d.received + 1 } })
      ∧ (∀ pkg ci, d.src = .remote pkg → x.circuitTo pkg = some ci → 0 < d.returning → Ctx.circuit c ∉ s.spilled →
        ∃ u, exec (.creditArrival c k) s = .next u ∧ u.procs = s.procs ∧ u.vout = s.vout ++ [.credit pkg
          { handle := x.handle c, prod := k, seq := ci.creditSend, count := min d.returning 16 }])
      ∧ ∃ u, exec (.growthCreditArrival c k) s = .next u
        ∧ only u { x with prods := x.prods.set k { d with credits := d.credits + d.growing, growing := 0 } })
    ∧ (∀ t rest, s.chan? c = some x → x.spill = t :: rest → ∃ u, exec (.spillRefill c) s = .next u
      ∧ only u (if x.buffer.length < x.slots then { x with buffer := x.buffer ++ [t], spill := rest } else x))
    ∧ (∀ ci (t : CircToken), s.chan? c = some x → x.circuits = [ci] → t.handle = x.handle c → c < 2 ^ 20 → x.tokenFrom t.prod = ci.pkg →
      Ctx.circuit c ∉ s.spilled → ci.heldTokens = [] → x.prods[t.prod]? = some d →
      let next := { x with circuits := [{ ci with recvSeq := ci.recvSeq + 1 }] }
      ∃ u, exec (.circuitTokenArrival t) s = .next u
        ∧ (t.seq = ci.recvSeq → x.consumerAway = false → d.flight = [] → only u (put next t.prod (circToken t x.wide)))
        ∧ (t.seq = ci.recvSeq → x.consumerAway = true ∨ d.flight ≠ [] →
          only u { next with prods := x.prods.set t.prod { d with flight := d.flight ++ [circToken t x.wide] } })
        ∧ (t.seq ≠ ci.recvSeq → only u { x with circuits := [{ ci with heldTokens := [t] }] }))
    ∧ (∀ ci (t : CircCredit), s.chan? c = some x → x.circuits = [ci] → t.handle = x.handle c → c < 2 ^ 20 → t.prod = k →
      x.creditFrom = ci.pkg → x.prods[k]? = some d → Ctx.circuit c ∉ s.spilled → ci.heldCredits = [] →
      ∃ u, exec (.circuitCreditArrival t) s = .next u
        ∧ (t.seq = ci.creditRecv → (∀ pkg, d.src ≠ .remote pkg) → only u { x with
            circuits := [{ ci with creditRecv := ci.creditRecv + 1 }]
            prods := x.prods.set k { d with credits := d.credits + t.count, received := d.received + BitVec.ofNat 32 t.count } })
        ∧ (t.seq = ci.creditRecv → (∃ pkg, d.src = .remote pkg) → only u { x with
            circuits := [{ ci with creditRecv := ci.creditRecv + 1 }], prods := x.prods.set k { d with returning := d.returning + t.count } })
        ∧ (t.seq ≠ ci.creditRecv → only u { x with circuits := [{ ci with heldCredits := [t] }] }))
    ∧ (∀ (t : CircToken) (y : CircCredit), s.liveHandle t.handle = none → y.handle = t.handle →
      let after := Host.Outcome.next { s with vout := s.vout ++ [.nakStale t.handle], staleLog := s.staleLog ++ [t.handle] }
      exec (.circuitTokenArrival t) s = after ∧ exec (.circuitCreditArrival y) s = after)
    ∧ (∀ r kd, s.proc? pid = some p → p.st = .parked r → p.park = some kd →
      (s.waitOf pid p kd.instr = some kd.reason → exec (.parkedWake pid) s = .next s)
      ∧ (s.waitOf pid p kd.instr ≠ some kd.reason → kd.reason ≠ .eventWait →
        exec (.parkedWake pid) s = .next (s.setProc pid { p with st := .ready, woken := true }))
      ∧ ∀ b m, kd.reason = .eventWait → kd.instr = .evwait b → p.evSpec (p.rd b) = some m →
        s.waitOf pid p kd.instr ≠ some kd.reason → ∃ u, exec (.parkedWake pid) s = .next u ∧ s.onlyAt u pid
          ∧ u.proc? pid = some { p with pc := p.pc + 4, st := .ready, park := none, woken := false, sig := kd.sigAfter }
          ∧ (u.tile p.tile).events = (s.tile p.tile).events &&& ~~~m)

/-- R174, R176-R180, R301, R328, R330, R353, R379, R383, R384, R389, R403: a frame boundary restarts budgets, brings
pending reservations into force and moves inheritance on; a snapshot reports and holds a network in which nothing moves; a
cue slot acts once its time has come; a box office hands out its tickets in order; answers and fault records are
delivered. -/
def Obligations.StageTurns : Prop :=
  ∀ (s : State) (pid k : Nat) (p : Proc), s.proc? pid = some p →
    (s.frame < s.cue / 1024 → ∃ u q, exec .cueFrameBoundary s = .next u ∧ u.frame = s.frame + 1 ∧ u.mem = s.mem ∧ u.tiles = s.tiles
      ∧ u.cue = s.cue ∧ (∀ j, (u.server j).granted = []) ∧ u.proc? pid = some { p with resvUnits := p.resvNext, eff := q }
      ∧ (p.resident = true → p.produces = [] → q = p.desc.prio)
      ∧ (∀ c x r rid t, p.resident = true → p.produces = [c] → s.chan? c = some x → s.chans.all (fun y => y.2.circuits.isEmpty) = true →
        s.proc? rid = some r → r.resident = true → r.produces = [] → s.readers.filter (fun y => y.1 == c) = [(c, rid)] →
        mget s.tenants p.tenant = some t → q = max p.desc.prio (min r.desc.prio t.quota.priomax)))
    ∧ (∀ c x ci (e : BitVec 3), s.chan? c = some x → x.circuits = [ci] → ∃ u, exec (.inheritanceFlitArrival c e) s = .next u
      ∧ u.procs = s.procs ∧ u.chan? c = some (if x.consumer = .remote ci.pkg then
          { x with circuits := [{ ci with arriving := some e.toNat }] } else x))
    ∧ (∀ n, s.snapTime < s.cue / 16384 → s.nets = [(k, n)] → n.st = .running → (s.netChans k).all (fun x => x.2.circuits.isEmpty) = true →
      let time := (s.snapTime + 1) * 16384
      let w := { s with snapTime := s.snapTime + 1
                        cut := { time, nets := [], parts := s.partOf time k n :: s.cut.parts.filter (fun x => decide (time ≤ x.time)) } }
      ∃ u, exec .stageSnapshot s = .next u ∧ u.snapTime = s.snapTime + 1 ∧ u.procs = s.procs ∧ u.mem = s.mem
        ∧ (∀ b, s.viewOf k n = (true, b) → u = w)
        ∧ (s.viewOf k n = (false, false) → (∃ m, mget u.nets k = some m ∧ m.st = .held ∧ m.thermal = false) ∧ u.chans = s.chans
          ∧ u.tenants = (w.stageReport n 0x36 time).tenants)
        ∧ (∀ c x t, s.viewOf k n = (false, true) → smallest (s.blockedChans n) = some (x.handle c, x.capacity) → c < 2 ^ 20 →
          s.chan? c = some x → x.net = k → (∀ y ∈ s.chans, y.2.handle y.1 = x.handle c → y = (c, x)) → x.consumerAway = false →
          x.prodsHere = x.prods → mget s.tenants n.tenant = some t →
          (s.spillCharge n.tenant + x.growPages ≤ t.quota.spill → u.nets = s.nets ∧ u.tenants = s.tenants ∧ u.chan? c = some { x with
            doublings := x.doublings + 1, spillPages := x.spillPages + x.growPages
            prods := x.prods.map (fun d => { d with growing := d.growing + d.share * (x.doublings + 1) }) })
          ∧ (t.quota.spill < s.spillCharge n.tenant + x.growPages → (∃ m, mget u.nets k = some m ∧ m.st = .held) ∧ u.chans = s.chans
            ∧ u.tenants = (w.stageReport n 0x33 time).tenants)))
    ∧ (∀ c x (far : FarEnd), s.chan? c = some x →
      (far.gone = none → (∀ y ∈ far.parts, y.time < s.cut.time ∨ y ∈ s.cut.parts) → exec (.snapshotDataArrival c far) s = .next s)
      ∧ (far.gone = none → s.cut.nets = [] → exec (.snapshotDataArrival c far) s = .next { s with cut := { s.cut with
          parts := s.cut.parts ++ far.parts.filter (fun y => decide (s.cut.time ≤ y.time) && !s.cut.parts.contains y) } })
      ∧ (∀ ci, far = { parts := [], gone := some 0 } → x.consumer = .remote ci.pkg → x.circuits = [ci] →
        s.procs.all (fun y => y.2.moved.isNone) = true → ∃ u, exec (.snapshotDataArrival c far) s = .next u ∧ u.procs = s.procs
          ∧ u.chan? c = some { x with circuits := [{ ci with retired := true }] })
      ∧ ∀ n y z, far = { parts := [z], gone := none } → s.cut.nets = [k] → mget s.nets k = some n → n.st = .running →
        s.cut.parts = [y] → y.pkg = s.selfPkg → y.net = k → z.pkg ≠ y.pkg → y.time = s.cut.time → z.time = s.cut.time →
        partsJoin y z = true → setWhole [y, z] = true → ∃ u m, exec (.snapshotDataArrival c far) s = .next u ∧ u.cut.nets = []
          ∧ mget u.nets k = some m ∧ (classOf [y, z] = .inMotion → m = n ∧ u.chans = s.chans) ∧ (classOf [y, z] = .dead → m.st = .held))
    ∧ (∀ (slot : BitVec 2) cs, p.active = true → p.cueWait = [] → vget p.cue slot.toNat none = some cs →
      (s.cue < cs.time.toNat → exec (.cueSlotFire pid slot) s = .next s)
      ∧ (cs.time.toNat ≤ s.cue → cs.since ≤ s.cue → s.cueBefore p slot.toNat cs.due = false → p.queries = [] → p.pend = none →
        (s.tile p.tile).pendingStores pid = [] →
        let w := cs.ctrl.toNat
        let q := { p with cue := p.cue.setIfInBounds slot.toNat none }
        let target := w / 16 % 16
        (w / 4 % 4 = 3 → ∃ u, exec (.cueSlotFire pid slot) s = .next u ∧ s.onlyAt u pid ∧ u.proc? pid = some q
          ∧ (u.tile p.tile).events = (s.tile p.tile).events ||| p.desc.evBit (w / 256 % 256))
        ∧ (w / 4 % 4 = 2 → (p.stream target).fault = false → (p.stream target).lastId + 1 < 2 ^ 48 → (p.stream target).kicks.length < 4 →
          (p.stream target).modeCode ≠ 2 → (p.stream target).count ≠ 0 → target < 8 → ∃ u r, exec (.cueSlotFire pid slot) s = .next u
            ∧ s.onlyAt u pid ∧ u.proc? pid = some r ∧ r.cue = q.cue ∧ r.g = p.g ∧ (r.stream target).lastId = (p.stream target).lastId + 1
            ∧ ∃ kk, (r.stream target).kicks = (p.stream target).kicks ++ [kk]
              ∧ kk.id = (p.stream target).lastId + 1 ∧ kk.offset = w / 2 ^ 32 ∧ kk.started = false ∧ kk.next = 0)
        ∧ (w / 4 % 4 = 1 → ∀ c x j r, p.port target = some (c, true) → s.chan? c = some x → s.consumerRetired x = false →
          x.prodOf (.proc pid target) = some j → x.prods[j]? = some r → r.credits ≠ 0 → ∃ u, exec (.cueSlotFire pid slot) s = .next u
            ∧ s.onlyAt u pid ∧ u.proc? pid = some { q with launches := p.launches ++ [{
                chan := c, prod := j, after := cs.after
                token := scalarToken x.wide (BitVec.ofNat 64 (w / 2 ^ 32)) (BitVec.ofNat 8 (w / 65536)) }] }
            ∧ u.chan? c = some { x with prods := x.prods.set j { r with credits := r.credits - 1, sent := r.sent + 1 } })))
    ∧ (∀ h : k < 32, ∀ q, s.offices[k].waiting = [pid] → p.queries = [q] → q.office = k → q.answer = none → ∃ u,
      let o := s.offices[k]
      exec (.boxOfficeQuery k) s = .next u ∧ s.onlyAt u pid ∧ u.offices[k].waiting = []
      ∧ u.offices[k].next = (if o.next < o.count then o.next + 1 else o.next) ∧ u.offices[k].count = o.count
      ∧ u.proc? pid = some { p with queries := [{ q with answer := some (if o.next < o.count then BitVec.ofNat 64 o.next
          else 0x8100000000000000) }] })
    ∧ (∀ q w, p.active = true → p.queries = [q] → q.answer = some w → q.store = none →
      ((s.tile p.tile).fifo pid (spSlice q.addr)).length < 8 → ∃ u e, exec (.dispqAnswer pid) s = .next u ∧ s.onlyAt u pid
        ∧ u.proc? pid = some { p with queries := [{ q with store := some p.storeSeq }], storeSeq := p.storeSeq + 1 }
        ∧ (u.tile p.tile).fifo pid (spSlice q.addr) = (s.tile p.tile).fifo pid (spSlice q.addr) ++ [e]
        ∧ e.seq = p.storeSeq ∧ e.line = q.addr / 64 * 64 ∧ e.enable = lineEnable q.addr 8
        ∧ e.bytes = BitVec.ofNat 512 (leNat (leBytes 8 w.toNat) * 2 ^ (8 * (q.addr % 64))))
    ∧ ∀ t x rest, mget s.tenants k = some t → t.faultq = x :: rest → x.discard = none → t.reserve = [] → (s.fn t.fn).fault.length < 256 →
      ∃ u f, exec (.faultRecordDeliver k) s = .next u ∧ u.procs = s.procs ∧ u.mem = s.mem
        ∧ mget u.tenants k = some { t with faultq := rest } ∧ mget u.fns t.fn = some f
        ∧ f.fault = (s.fn t.fn).fault ++ [{ data := leBytes 8 x.word.toNat, tag := 128, poison := [false] }]

/-! ## Engines (ch. 11, 15) -/

/-- R298, R336, R340-R345: a kicked transfer starts with its acquire; a copy moves one element by a read and a write, each a
line request of the engine; a load strip's element is asked for and its reply lands in its group, zeros beyond N, and the
strip is available once all have; a released store strip is written by requests, its groups zeroed and its successor handed
back; an access that fails makes the transfer fault; the mailbox store advances the watermark, or marks it. -/
def Obligations.StreamTurns : Prop :=
  ∀ (s : State) (pid : Nat) (j : BitVec 3) (p : Proc), s.proc? pid = some p → s.engineRuns p = true → p.closing = [] →
    (s.tile p.tile).denied = [] →
    let src := Source.engine pid j.toNat
    let t := p.stream j.toNat
    let free := s.sourceBusy src = false
    let idle := free ∧ s.hartTaken pid j.toNat p = false
    let asks := fun (w : State) (a : Nat) (kd : ReqKind) => exec (.engineTransfer pid j) s = .next (w.sendReq src a kd p.eff).2
    let now := fun (w : State) (r : StreamCtx) => w.setProc pid (p.modStream j.toNat (fun _ => r))
    let w := { s with replies := [] }
    let bit := fun (u : State) (on : Bool) (n : Nat) =>
      (u.tile p.tile).events = if on then (s.tile p.tile).events ||| p.desc.evBit n else (s.tile p.tile).events
    (∀ kk ks, t.kicks = kk :: ks → t.faulting = none → s.sourceWaits src = false →
      (kk.started = false → exec (.engineTransfer pid j) s = .next (now s { t with kicks := { kk with started := true } :: ks }))
      ∧ (kk.started = true →
        (free → s.hartTaken pid j.toNat p = true → exec (.engineTransfer pid j) s = .next s)
        ∧ (idle → s.unknown p (t.touched kk) ≠ [] → exec (.engineTransfer pid j) s = .next (s.want p (s.unknown p (t.touched kk)))))
      ∧ (kk.started = true → t.modeCode = 0 → kk.next < t.count →
        let from_ := t.addr (kk.offset + kk.next) 0
        let dst := t.aux + BitVec.ofNat 64 (t.z * (kk.offset + kk.next))
        (idle → s.unknown p (t.touched kk) = [] →
          (∀ a, s.enginePlace p from_ t.z kRead = .ok (some (.phys a)) → asks s a (.read t.z))
          ∧ ∀ c, s.enginePlace p from_ t.z kRead = .error c →
            exec (.engineTransfer pid j) s = .next (now s { t with faulting := some (c, from_, kk.id), deadFrom := none }))
        ∧ ∀ r, s.replies = [r] → r.src = src →
          (∀ d, r.cause = none → r.bytes ≠ [] → w.enginePlace p dst r.bytes.length kWrite = .ok (some (.phys d)) →
            asks w d (.write r.bytes (r.bytes.map (fun _ => r.poison.any id))))
          ∧ (r.cause = none → r.bytes = [] → exec (.engineTransfer pid j) s
            = .next (now w { t with kicks := { kk with next := kk.next + 1 } :: ks }))
          ∧ ∀ c, r.cause = some c → exec (.engineTransfer pid j) s
            = .next (now w { t with faulting := some (c, from_, kk.id), deadFrom := none }))
      ∧ ∀ x, kk.started = true → t.layout ≠ 3 → t.et ≠ .mx4 →
        let e := x.filled / t.heads
        let f := x.filled % t.heads
        let i := t.indexOf x.index e
        let base := (p.geom.nregs + t.groupOf f x.index) * t.lrows
        let one := t.putStrip { x with filled := x.filled + 1 }
        (t.modeCode = 1 → t.opened = true → t.fillNext = some x →
          (∀ a, idle → s.unknown p (t.touched kk) = [] → i < t.count →
            s.enginePlace p (t.addr (kk.offset + i) f) t.z kRead = .ok (some (.phys a)) → asks s a (.read t.z))
          ∧ (idle → t.count ≤ i → ∃ u q, exec (.engineTransfer pid j) s = .next u ∧ s.onlyAt u pid ∧ u.proc? pid = some q
            ∧ q.elem base t.z e = 0 ∧ q.elemPsn base t.z e = false ∧ q.stream j.toNat = one)
          ∧ ∀ r, s.replies = [r] → r.src = src → i < t.count →
            (r.cause = none → r.bytes.length = t.z → ∃ u q, exec (.engineTransfer pid j) s = .next u ∧ s.onlyAt u pid
              ∧ u.replies = [] ∧ u.proc? pid = some q ∧ q.elem base t.z e = leNat r.bytes
              ∧ q.elemPsn base t.z e = r.poison.any id ∧ q.stream j.toNat = one)
            ∧ ∀ c, r.cause = some c → exec (.engineTransfer pid j) s
              = .next (now w { t with faulting := some (c, t.addr (kk.offset + i) f, kk.id), deadFrom := some x.index }))
        ∧ (t.modeCode = 2 → t.strip? t.done = some x → x.released = true → x.filled < t.pieces → t.fault = false → i < t.count →
          (∀ a, idle → s.unknown p (t.touched kk) = [] → (f = 0 → s.badPart p t (kk.offset + i) = none) →
            s.enginePlace p (t.addr (kk.offset + i) f) t.z kWrite = .ok (some (.phys a)) →
            asks s a (.write (leBytes t.z (p.elem base t.z e)) ((leBytes t.z (p.elem base t.z e)).map (fun _ => p.elemPsn base t.z e))))
          ∧ (∀ a c, idle → s.unknown p (t.touched kk) = [] → f = 0 → s.badPart p t (kk.offset + i) = some (a, c) →
            ∃ u q, exec (.engineTransfer pid j) s = .next u ∧ s.onlyAt u pid ∧ u.proc? pid = some q
              ∧ (q.stream j.toNat).faulting = some (c, a, kk.id))
          ∧ ∀ r, s.replies = [r] → r.src = src → r.cause = none → exec (.engineTransfer pid j) s = .next (now w one)))
    ∧ (∀ x, t.opened = true → t.modeCode = 1 → t.strips = [x] → x.available = false → t.pieces ≤ x.filled →
      ∃ u, exec (.stripFill pid j) s = .next u ∧ u.mem = s.mem ∧ bit u t.sen t.sbit
        ∧ u.procs = (now s { t with strips := [{ index := x.index, available := true, filled := 0, released := false }] }).procs)
    ∧ (t.opened = false → p.oldStrips j.toNat t = false → t.modeCode = 1 → exec (.stripFill pid j) s
      = .next (s.setProc pid ((p.zeroGroups t).modStream j.toNat (fun t => { t with opened := true }))))
    ∧ (∀ x, t.open = true → p.stripReleased j.toNat t.done = true → free → t.kicked = true → t.fault = false → t.strip? t.done = some x →
      (t.modeCode = 1 → x.available = true → exec (.stripRelease pid j) s
        = .next (now s { t with done := t.done + 1, strips := t.strips.filter (fun x => x.index != t.done) }))
      ∧ (t.modeCode = 1 → x.available = false → t.deadFrom = none → exec (.stripRelease pid j) s = .next s)
      ∧ (t.modeCode = 2 → exec (.stripRelease pid j) s = .next (now s (t.putStrip { x with released := true }))))
    ∧ (∀ x, t.modeCode = 2 → t.strip? t.done = some x → x.released = true → t.pieces ≤ x.filled → t.fault = false →
      let lo := fun f => (p.geom.nregs + t.groupOf f x.index) * p.geom.lrows
      ∃ u q, exec (.stripWriteback pid j) s = .next u ∧ s.onlyAt u pid ∧ u.proc? pid = some q ∧ (q.stream j.toNat).done = t.done + 1
        ∧ (∀ f < t.heads, ∀ r < p.geom.lrows, mgetD q.rows (lo f + r) 0 = 0 ∧ mgetD q.rowPoison (lo f + r) 0 = 0)
        ∧ (∀ r, (∀ f < t.heads, r < lo f ∨ lo f + p.geom.lrows ≤ r) → mgetD q.rows r 0 = mgetD p.rows r 0)
        ∧ (t.done + t.depth < t.last → t.deadFrom = none → bit u t.sen t.sbit
          ∧ (q.stream j.toNat).strip? (t.done + t.depth)
            = some { index := t.done + t.depth, available := true, filled := 0, released := false }))
    ∧ (∀ kk, t.kicks = [kk] → t.faulting = none → t.fault = false → (t.modeCode = 0 → t.count ≤ kk.next) →
      (t.modeCode ≠ 0 → t.last ≤ t.done) → ∃ u, exec (.transferComplete pid j) s = .next u ∧ u.mem = s.mem
        ∧ u.procs = (now s { t with watermark := kk.id, kicks := [] }).procs ∧ bit u t.den t.dbit)
    ∧ ∀ c a id, t.faulting = some (c, a, id) → p.desc.fpen = false → exec (.transferFault pid j) s
      = .next ((now s { t with fault := true, watermark := id, faulting := none
                               kicks := if t.modeCode = 1 then t.kicks.take 1 else [] }).recorded p.tenant
        [recordHead 3 0 (s.netNumber p) p.desc.lproc 0 0, noticeWord c 1 j.toNat id])

/-- R434-R436: a post whose condition holds fires, or faults where its destination is no page of another package; a fired
one reads its source by line requests, block by block, once every access before it is done, and sends its bytes in packets of
at most 256 with KEY and offset; the acknowledgement of the last completes it and raises DONE, a NAK
faults it; a packet that passes the checks is written in the registration, any other is answered. -/
def Obligations.TransferTurns : Prop :=
  ∀ (s : State) (pid : Nat) (q : BitVec 2) (p : Proc) (t : Post), s.proc? pid = some p → (p.queueAt q.toNat).posts = [t] →
    let now := fun (x : Post) => s.setProc pid (p.modQueue q.toNat (fun y => { y with posts := [x] }))
    (t.fired = false → s.postReady p q.toNat t = true → t.kind ≠ 1 →
      (∀ k l, inDevice t.dst = true → canonDev t.dst = true →
        s.dstRuns p.tenant (t.dst.toNat % 2 ^ 48) t.len 0 none (t.len / 4096 + 2) = .ok (k, l) →
        exec (.transferFire pid q) s = .next (now { t with fired := true, pkg := k, runs := l }))
      ∧ (inDevice t.dst = false → (p.queueAt q.toNat).fault = none → ∃ u r, exec (.transferFire pid q) s = .next u ∧ s.onlyAt u pid
        ∧ u.proc? pid = some r ∧ (r.queueAt q.toNat).fault = some (t.number, 0x94) ∧ (r.queueAt q.toNat).posts = []
        ∧ (r.queueAt q.toNat).doneCount = (p.queueAt q.toNat).doneCount))
    ∧ (∀ left key off, t.fired = true → t.sent < t.len → s.relayRuns p = true → s.relayBusy pid (q.toNat + 8) = false →
      p.doneBefore t.after = true → s.sourceWaits (.relay pid (q.toNat + 8)) = false → runAt t.runs t.sent = some (left, key, off) →
      let src := Source.relay pid (q.toNat + 8)
      let a := t.src + BitVec.ofNat 64 (t.sent + t.got.length)
      let n := min 256 (min left (t.len - t.sent))
      (∀ pa, s.sourceBusy src = false → s.memErrors = [] → inDevice a = true → canonDev a = true →
        s.walkTranslate p.tenant a.toNat kRead = .ok (.phys pa) → exec (.transferFire pid q) s
          = .next (s.sendReq src pa (.read (min (n - t.got.length) (64 - a.toNat % 64))) p.eff).2)
      ∧ ∀ r, s.replies = [r] → r.src = src →
        let b := t.got ++ r.bytes
        let psn := t.gotPsn ++ r.poison
        (r.cause = none → b.length < n → exec (.transferFire pid q) s
          = .next { now { t with got := b, gotPsn := psn } with replies := [] })
        ∧ (r.cause = none → n ≤ b.length → Ctx.imported p.tenant t.pkg key ∉ s.spilled →
          ∃ u m, exec (.transferFire pid q) s = .next u ∧ u.mem = s.mem ∧ u.vout = s.vout ++ [.message t.pkg m]
            ∧ m.tenant = p.tenant ∧ m.key = key ∧ m.gen = s.importGen p.tenant t.pkg key ∧ m.regOff = off ∧ m.post = t.number
            ∧ m.off = t.sent ∧ m.len = t.len ∧ m.tqh = t.tqh ∧ m.srcQ = (p.queueAt q.toNat).handle ∧ m.bytes = b ∧ m.poison = psn
            ∧ u.procs = (now { t with sent := t.sent + b.length, unacked := t.unacked ++ [t.sent], got := [], gotPsn := [] }).procs)
        ∧ ∀ c, r.cause = some c → (p.queueAt q.toNat).fault = none → ∃ u z, exec (.transferFire pid q) s = .next u ∧ s.onlyAt u pid
          ∧ u.proc? pid = some z ∧ (z.queueAt q.toNat).fault = some (t.number, c) ∧ (z.queueAt q.toNat).posts = [])
    ∧ (∀ id x m rep, s.remotes = [(id, x)] → x.src = .relay pid q.toNat → x.msg = some m → m.post = t.number →
      let ack := exec (.xpostPacketAck pid q { post := m.post, off := m.off, rep }) s
      (rep = .retry → ack = .next { s with remotes := [(id, { x with waiting := true })] })
      ∧ (∀ c, rep = .nak c → carriedCause c = true → (p.queueAt q.toNat).fault = none → ∃ u r, ack = .next u ∧ s.onlyAt u pid ∧ u.remotes = []
        ∧ u.proc? pid = some r ∧ (r.queueAt q.toNat).fault = some (t.number, c) ∧ (r.queueAt q.toNat).posts = [])
      ∧ (∀ b psn ok fl, rep = .done b psn ok fl → t.fired = true → t.len ≤ t.sent → t.unacked = [m.off] →
        (p.queueAt q.toNat).doneCount + 1 = t.number → ∃ u, ack = .next u ∧ u.remotes = [] ∧ u.mem = s.mem
          ∧ u.procs = (s.setProc pid (p.modQueue q.toNat (fun y => { y with posts := [], doneCount := t.number }))).procs))
    ∧ ∀ (m : MsgPkt), Ctx.queue (m.tqh.toNat / 4096) ∉ s.spilled →
      s.memErrors = [] →
      let n := m.bytes.length
      let check := s.checkRemote m.tenant m.key m.gen m.regOff n kWrite
      let naked := fun (c : Cause) => Host.Outcome.next { s with
        nakLog := s.nakLog ++ [(m.src, c)]
        vout := s.vout ++ [.msgReply m.src m.srcQ { post := m.post, off := m.off, rep := .nak c }] }
      (∀ r pa w, check = .ok r → s.queueOf m.tqh = some w → 0 < n → n ≤ 64 - m.regOff % 64 → m.poison.length = n →
        s.walkTranslate r.tenant (r.base + m.regOff) kWrite = .ok (.phys pa) → exec (.messagePacketArrival m) s = .next { s with
          flight := s.flight ++ [{ id := s.nextReq, src := .remote m.src m.id, pa, kind := .write m.bytes m.poison, prio := 0, age := s.reqAge }]
          accepted := s.accepted ++ [{ key := m.key, pkg := m.src, id := m.id, req := s.nextReq, msg := some m }]
          nextReq := s.nextReq + 1, reqAge := s.reqAge + 1 })
      ∧ (∀ r, check = .ok r → s.queueOf m.tqh = none → exec (.messagePacketArrival m) s = naked 0x26)
      ∧ ∀ c, check = .error (.nak c) → exec (.messagePacketArrival m) s = naked c

/-- R438-R440: a collective begins with an exchange of digests, and fails where they differ; a chunk is read and written by
line requests, block by block (R365); the first rank sends its chunk on, a middle one the combination of what has come with its own, and the final result is passed on and written; once
every byte is written COLL rises. -/
def Obligations.CollectiveTurns : Prop :=
  ∀ (s : State) (pid : Nat) (p : Proc) (c : Coll) (cs : List Coll) (g : CollBind), s.proc? pid = some p → p.colls = c :: cs →
    (∀ x ∈ cs, x.number ≠ c.number) → s.group p = some g →
    let now := fun (x : Coll) => s.setProc pid { p with colls := x :: cs }
    let next := g.digest.ranks.getD ((g.rank + 1) % g.digest.devcnt) 0
    let prev := g.digest.ranks.getD ((g.rank + (g.digest.devcnt - 1)) % g.digest.devcnt) 0
    let failed := fun (r : Res) (cause : Cause) => ∃ u q, r = .next u ∧ s.onlyAt u pid ∧ u.proc? pid = some q ∧ q.colls = cs.filter
        (fun x => x.number != c.number) ∧ q.coll = p.coll ∧ (p.collFault = none → q.collFault = some (c.number, cause))
      ∧ ∃ l, u.vout = s.vout ++ l ∧ ∀ k, k ∈ g.digest.ranks → some k ≠ s.self → .marker k g.digest.tag c.number cause ∈ l
    (s.relayRuns p = true → s.relayBusy pid 4 = false → c.started = false →
      (g.digest.devcnt ≤ 1 → exec (.collectiveStart pid) s = .next (now { c with started := true, prevOk := true, nextOk := true }))
      ∧ (1 < g.digest.devcnt → exec (.collectiveStart pid) s = .next { now { c with started := true } with vout := s.vout ++ [
          .digest next g.digest.tag { n := c.number, fromPrev := true, digest := g.digest, et := c.et, op := c.op, count := c.count },
          .digest prev g.digest.tag { n := c.number, fromPrev := false, digest := g.digest, et := c.et, op := c.op, count := c.count }] }))
    ∧ (∀ (m : DigestMsg), m.n = c.number → c.number ≤ p.collIssued →
      (m.digest ≠ g.digest → failed (exec (.digestExchange pid m) s) 0x95)
      ∧ (m.digest = g.digest → (m.et ≠ c.et ∨ m.op ≠ c.op ∨ m.count ≠ c.count) → failed (exec (.digestExchange pid m) s) 0x94)
      ∧ (m.digest = g.digest → m.et = c.et → m.op = c.op → m.count = c.count → exec (.digestExchange pid m) s
        = .next (now (if m.fromPrev then { c with prevOk := true } else { c with nextOk := true }))))
    ∧ (∀ cause, c.number ≤ p.collIssued → carriedCause cause = true → failed (exec (.collFailureMarker pid c.number cause) s) cause)
    ∧ (s.relayRuns p = true → c.started = true → c.prevOk = true → c.nextOk = true → c.past = false → s.relayBusy pid 4 = false →
      s.sourceWaits (.relay pid 4) = false → s.memErrors = [] → p.heldChunks = [] →
      let src := Source.relay pid 4
      let free := s.sourceBusy src = false
      let z := collBytes c.et
      let last := decide (g.rank + 1 = g.digest.devcnt)
      (∀ pa, free → c.phase = .read → s.collPlace p c c.bytes.length kRead = .ok (.phys pa) → exec (.collectiveStart pid) s
        = .next (s.sendReq src pa (.read (min (64 - pa % 64) (c.chunkBytes - c.bytes.length))) p.eff).2)
      ∧ (∀ r, s.replies = [r] → r.src = src → r.cause = none → c.phase = .read → exec (.collectiveStart pid) s
        = .next { now { c with
          bytes := c.bytes ++ r.bytes, poison := c.poison ++ r.poison
          phase := if c.chunkBytes ≤ c.bytes.length + r.bytes.length then .exchange else .read } with replies := [] })
      ∧ (∀ r cause, s.replies = [r] → r.src = src → r.cause = some cause → c.phase = .read ∨ c.phase = .write →
        failed (exec (.collectiveStart pid) s) cause)
      ∧ (free → c.phase = .exchange → g.rank = 0 → 1 < g.digest.devcnt → exec (.collectiveStart pid) s = .next
        { now { c with phase := .final, written := 0 } with vout := s.vout
          ++ [.chunk next g.digest.tag { n := c.number, chunk := c.chunk, final := false, bytes := c.bytes, poison := c.poison }] })
      ∧ (∀ m, free → c.phase = .exchange → g.rank ≠ 0 → m.n = c.number → m.chunk = c.chunk → m.final = false →
        m.bytes.length = c.bytes.length → c.bytes.length % z = 0 → ∃ b psn, b.length = c.bytes.length
          ∧ (∀ e < b.length / z, leAt b (z * e) z
            = collOp c.et c.op (leAt m.bytes (z * e) z) (leAt c.bytes (z * e) z) % 2 ^ (8 * z))
          ∧ exec (.relayChunk pid m) s = .next (if g.rank + 1 < g.digest.devcnt
            then { now { c with phase := .final, bytes := b, poison := psn, written := 0 } with vout := s.vout
              ++ [.chunk next g.digest.tag { n := c.number, chunk := c.chunk, final := false, bytes := b, poison := psn }] }
            else now { c with phase := .write, bytes := b, poison := psn, written := 0 }))
      ∧ (∀ m, free → c.phase = .final → m.n = c.number → m.chunk = c.chunk → m.final = true → exec (.relayChunk pid m) s
        = .next { now { c with phase := .write, bytes := m.bytes, poison := m.poison, written := 0 } with
          vout := s.vout ++ if g.rank + 2 < g.digest.devcnt then [.chunk next g.digest.tag m] else [] })
      ∧ (∀ pa, free → c.phase = .write → s.collPlace p c c.written kWrite = .ok (.phys pa) →
        let n := min (64 - pa % 64) (c.bytes.length - c.written)
        ∃ u, exec (.collectiveStart pid) s = .next u ∧ u.mem = s.mem ∧ u.procs = (now { c with asked := n }).procs
          ∧ u.flight = (s.sendReq src pa (.write ((c.bytes.drop c.written).take n) ((c.poison.drop c.written).take n)) p.eff).2.flight)
      ∧ ∀ r, s.replies = [r] → r.src = src → r.cause = none → c.phase = .write →
        let w := c.written + c.asked
        (w < c.bytes.length → exec (.collectiveStart pid) s = .next { now { c with written := w } with replies := [] })
        ∧ (c.bytes.length ≤ w → exec (.collectiveStart pid) s = .next { now { c with
            chunk := c.chunk + 1, phase := .read, bytes := [], poison := [], written := 0, asked := 0 } with
            replies := []
            vout := s.vout ++ if last = true ∧ 1 < g.digest.devcnt then
              [.chunk next g.digest.tag { n := c.number, chunk := c.chunk, final := true, bytes := c.bytes, poison := c.poison }] else [] }))
    ∧ (c.started = true → c.prevOk = true → c.nextOk = true → c.past = true → p.collFault = none →
      exec (.collectiveComplete pid) s = .next (s.setProc pid { p with colls := cs, coll := p.coll + 1 }))

/-! ## Viaduct, the host and the module (ch. 14, 15) -/

/-- R422-R424: a good flit in its order joins the packet its port receives, and the whole packet is taken here or forwarded to
the package it is for, any other flit is asked for again; a port that goes down leaves a package it alone reached unreachable;
a good bulk block on a live port is written at its place, any other asked for again.
R427, R429, R430: a remote request is checked for its registration, its tenant, a revocation, its generation, its range
and its kind in that order, and sent to its server or refused; replies reach their source; a request asked to retry is
sent again and fails after 16 times, as one does to a package out of reach; contexts leave the cache unless pinned and
come back; a revocation ends once every accepted request has been performed. -/
def Obligations.ViaductTurns : Prop :=
  (∀ (s : State) (k : Nat),
    let p := s.vport k
    (∀ (f : Flit), p.up = true → p.bulk = none →
      let good := f.payload.length = 32 ∧ f.corrected = true ∧ f.crc = Config.linkCrc f.payload ∧ f.seq = p.recvSeq
      let l := p.packet ++ [f.payload]
      let whole := decide (l.length = 1 + Config.packetFlits (l.headD []) % 9)
      (good → ∃ u, exec (.flitArrival k f) s = .next u ∧ (∀ j, j ≠ k → u.vport j = s.vport j)
        ∧ u.vport k = { p with recvSeq := f.seq + 1, farBulk := none, packet := if whole then [] else l }
        ∧ u.inbox = s.inbox ++ (if whole && s.self == some f.dst then [l.flatten] else [])
        ∧ u.vout = s.vout ++ (if whole && s.self != some f.dst then [.forward f.dst l.flatten] else [])
        ∧ { u with ports := s.ports, vout := s.vout, inbox := s.inbox } = s)
      ∧ (¬good → exec (.flitArrival k f) s = .next { s with vout := s.vout ++ [.nakFlit k p.recvSeq] }))
    ∧ (∃ u, exec (.portDown k) s = .next u ∧ u.vport k = { p with up := false } ∧ (∀ j, j ≠ k → u.vport j = s.vport j)
      ∧ { u with ports := s.ports } = s
      ∧ ∀ pkg g, mget s.routes pkg = some g → (∀ j < 36, g.getLsbD j = true → j = k) → u.reachable pkg = false)
    ∧ ∀ (key : BitVec 12) (b : BulkBlock),
      let n := b.header.toNat % 2 ^ 30
      let good := b.payload.length = 512
        ∧ b.header.toNat / 2 ^ 32 = (Config.linkCrc (leBytes 4 b.header.toNat ++ b.payload)).toNat
      let w := s.modVPort k (fun p => { p with farBulk := some key })
      (p.up = false → exec (.bulkBlockArrival k key b) s = .next s)
      ∧ (p.up = true → p.bulk = none → p.farBulk = none ∨ p.farBulk = some key →
        (¬good → exec (.bulkBlockArrival k key b) s = .next { w with vout := s.vout ++ [.nakBlock k n] })
        ∧ ∀ r pa, good → s.memErrors = [] → s.reg? key = some r → 512 * n + 512 ≤ r.pages * 4096 →
          s.walkTranslate r.tenant (r.base + 512 * n) kWrite = .ok (.phys pa) → ∃ u, exec (.bulkBlockArrival k key b) s = .next u
            ∧ u.procs = s.procs ∧ u.ports = w.ports ∧ ∀ a, memByte u.mem a = if pa ≤ a ∧ a < pa + 512
              then b.payload.getD (a - pa) 0 else memByte s.mem a))
  ∧ (∀ (s : State),
       (∀ (q : RemReq),
         let n := kindBytes q.kind
         let nak := fun (c : Cause) => exec (.remoteRequest q) s
           = .next { s with nakLog := s.nakLog ++ [(q.src, c)], vout := s.vout ++ [.reply q.src q.id (.nak c)] }
         (Ctx.registration q.key.toNat ∈ s.spilled →
           exec (.remoteRequest q) s = .next { s with vout := s.vout ++ [.reply q.src q.id .retry] })
         ∧ (Ctx.registration q.key.toNat ∉ s.spilled → (s.reg? q.key = none → nak 0x91)
           ∧ ∀ r, s.reg? q.key = some r → (r.allowed.getLsbD q.tenant = false → nak 0x91)
             ∧ (r.allowed.getLsbD q.tenant = true → (r.revoked = true ∨ r.revoking = true →
                 ∃ u, exec (.remoteRequest q) s = .next u ∧ u.vout = s.vout ++ [.reply q.src q.id (.nak 0x25)]
                   ∧ u.flight = s.flight ∧ u.mem = s.mem ∧ u.procs = s.procs)
               ∧ (r.revoked = false → r.revoking = false → (q.gen ≠ r.gen → nak 0x26)
                 ∧ (q.gen = r.gen → (r.pages * 4096 < q.off + n → nak 0x92)
                   ∧ (q.off + n ≤ r.pages * 4096 → (r.admits (kindAccess q.kind) = false → nak 0x93)
                     ∧ ∀ pa, r.admits (kindAccess q.kind) = true → s.memErrors = [] →
                       s.walkTranslate r.tenant (r.base + q.off) (kindAccess q.kind) = .ok (.phys pa) →
                       exec (.remoteRequest q) s = .next { s with
                         flight := s.flight ++ [{ id := s.nextReq, src := .remote q.src q.agent, pa, kind := q.kind, prio := 0, age := s.reqAge }]
                         accepted := s.accepted ++ [{ key := q.key, pkg := q.src, id := q.id, req := s.nextReq, msg := none }]
                         nextReq := s.nextReq + 1, reqAge := s.reqAge + 1 }))))))
       ∧ (∀ (id : Nat) (x : RemotePend), mget s.remotes id = some x → x.msg = none →
         let back := fun (r : Reply) => ({ s with remotes := mdel s.remotes id, replies := s.replies ++ [r] } : State)
         let bad := fun (c : Cause) => back { id, src := x.src, bytes := [], poison := [], cause := some c, ok := true, flags := Flags.none }
         (∀ b p ok fl, ∃ f, exec (.remoteReply id (.done b p ok fl)) s
           = .next (back { id, src := x.src, bytes := b, poison := p, cause := none, ok, flags := f }) ∧ f = Flags.ofWord (fl.setWidth 64))
         ∧ (∀ c, exec (.remoteReply id (.nak c)) s = .next (if carriedCause c then bad c else s))
         ∧ exec (.remoteReply id .retry) s = .next { s with remotes := mset s.remotes id { x with waiting := true } }
         ∧ (x.waiting = true → exec (.retryResend id) s = .next (if 16 ≤ x.retries then bad 0x27 else
             { s with remotes := mset s.remotes id { x with waiting := false, retries := x.retries + 1 }
                      vout := s.vout ++ [.request x.pkg x.req] }))
         ∧ (s.reachable x.pkg = false → exec (.unreachableTimeout id) s = .next (bad 0x90)))
       ∧ (∀ c l, s.spilled = c :: l → (s.cacheFull c = true → exec (.contextFill 0) s = .next s)
         ∧ (s.cacheFull c = false → (∀ x ∈ s.remotes, x.2.unsent = false) → exec (.contextFill 0) s = .next { s with spilled := l })
         ∧ ∀ id x, s.cacheFull c = false → s.remotes = [(id, x)] → c = .imported x.req.tenant x.pkg x.req.key → x.unsent = true →
           exec (.contextFill 0) s = .next { s with
             spilled := l, vout := s.vout ++ [x.packet], remotes := [(id, { x with unsent := false })] })
       ∧ (∀ c, s.spilled = [] → s.contextList = [(c, false)] → exec (.contextSpill 0) s = .next { s with spilled := [c] })
       ∧ (∀ c, s.contextList = [(c, true)] → exec (.contextSpill 0) s = .next s)
       ∧ ∀ (key : BitVec 12) (r : Reg) (fn : Nat) (f : Fn) (b : Busy), s.reg? key = some r → r.revoking = true →
         (s.accepted.any (fun a => a.key == key) = true → exec (.revokeComplete key) s = .next s)
         ∧ (s.accepted.any (fun a => a.key == key) = false → s.fns = [(fn, f)] → f.busy = some b → f.cmdin = [] → b.mute = false →
           b.header.toNat / 2 ^ 56 = 0x1F → b.args = [BitVec.ofNat 64 key.toNat] → ∃ u, exec (.revokeComplete key) s = .next u
             ∧ u.reg? key = some { r with revoking := false, revoked := true } ∧ u.procs = s.procs ∧ u.mem = s.mem
             ∧ (u.fn fn).busy = none ∧ (u.fn fn).reply ++ (u.fn fn).replyWait.flatten
               = f.reply ++ f.replyWait.flatten ++ replyOf b.header (headerNet b.header) 0 []))

/-- R442-R447, R455, what each of INLET_WRITE, OUTLET_READ, WINDOW_READ, WINDOW_WRITE, MSIX_TABLE_WRITE and
CONFIGURATION_REQUEST answers: a token written whole to CMDIN or to an inlet is taken against a credit, behind the writes that
came before it, one without a credit is discarded and counted, one of another extent is malformed; an outlet gives one token a
read and zero when it is empty; the window reaches the tenant's pages and nothing else, by a line request for each piece; the
table of vectors takes what is written; a configuration request is answered. -/
def Obligations.HostTurns : Prop :=
  ∀ (s : State) (fn off n : Nat) (b : List Byte) (psn : Bool),
    let f := s.fn fn
    let token := fun (w : Nat) => ({ data := b.take w, tag := b.getD w 0, poison := List.replicate (w / 8) psn } : Token)
    let read := fun (u : State) (c : Completion) => exec (.outletRead fn off n) s = .next u ∧ u.completions = s.completions ++ [c]
      ∧ u.mem = s.mem ∧ u.procs = s.procs
    let zeros := Completion.data (List.replicate n 0) false
    (s.ready = true → off = 0 → b.length = 16 → (b.getD 8 0).toNat < 128 →
      (0 < f.cmdCredits → b.getD 8 0 = 2 → (leNat (b.take 8)) / 2 ^ 48 % 256 ≠ 0 → f.cmdin = [] → f.posted = [] →
        ∃ u, exec (.inletWrite fn off b psn) s = .next u ∧ { u with fns := s.fns } = s ∧ (∀ k, k ≠ fn → u.fn k = s.fn k)
          ∧ u.fn fn = { f with cmdin := [token 8], cmdCredits := f.cmdCredits - 1 })
      ∧ (∀ va o l c i ids rest, 0 < f.cmdCredits → f.posted = .window va o l c (some (i :: ids)) :: rest →
        ∃ u, exec (.inletWrite fn off b psn) s = .next u ∧ { u with fns := s.fns } = s ∧ (∀ k, k ≠ fn → u.fn k = s.fn k)
          ∧ u.fn fn = { f with posted := f.posted ++ [.command (token 8)], cmdCredits := f.cmdCredits - 1 })
      ∧ (f.cmdCredits = 0 → ∃ u, exec (.inletWrite fn off b psn) s = .next u ∧ u.procs = s.procs ∧ u.mem = s.mem
        ∧ (u.fn fn).cmdin = f.cmdin ∧ (u.fn fn).ovr = (if f.ovr = 0xFFFF then f.ovr else f.ovr + 1)))
    ∧ (off < 16 → 0 < b.length → ¬(off = 0 ∧ b.length = 16) → ∃ u, exec (.inletWrite fn off b psn) s = .next u ∧ u.procs = s.procs
      ∧ u.mem = s.mem ∧ u.chans = s.chans ∧ (u.fn fn).cmdin = f.cmdin ∧ (u.fn fn).badw = (if f.badw = 0xFFFF then f.badw else f.badw + 1))
    ∧ (∀ slot c x k d, s.slotsOf fn true = [(slot, c, x)] → s.chan? c = some x → x.hostProd fn slot = some (k, d) →
      let w := if x.wide then 64 else 8
      off = 0x1000 + 0x100 * slot → b.length = 2 * w → (b.getD w 0).toNat < 128 →
      (0 < d.credits → f.posted = [] → ∃ u, exec (.inletWrite fn off b psn) s = .next u
        ∧ { u with chans := s.chans, fns := s.fns } = s ∧ (∀ j, u.fn j = s.fn j)
        ∧ (∀ j, j ≠ c → u.chan? j = s.chan? j) ∧ u.chan? c = some { x with prods := x.prods.set k { d with
            credits := d.credits - 1, sent := d.sent + 1, flight := d.flight ++ [token w] } })
      ∧ (d.credits = 0 → ∃ u, exec (.inletWrite fn off b psn) s = .next u ∧ u.procs = s.procs ∧ u.mem = s.mem ∧ u.chans = s.chans
        ∧ (u.fn fn).ovr = (if f.ovr = 0xFFFF then f.ovr else f.ovr + 1)))
    ∧ (off = 0x100 → n = 16 → (f.reply = [] → exec (.outletRead fn off n) s = .next { s with completions := s.completions ++ [zeros] })
      ∧ ∀ t l, f.reply = t :: l → t.data.length = 8 → f.replyWait = [] → f.cmdin = [] →
        ∃ u p, read u (.data (t.data ++ [t.tag, p] ++ List.replicate 6 0) false)
        ∧ p = (if t.poison.any id then 3 else 1) ∧ (u.fn fn).reply = l ∧ (u.fn fn).fault = f.fault)
    ∧ (off = 0x200 → n = 16 → (f.fault = [] → exec (.outletRead fn off n) s = .next { s with completions := s.completions ++ [zeros] })
      ∧ ∀ t l, f.fault = t :: l → t.data.length = 8 → f.faultWait = [] → f.discards = [] →
        ∃ u p, read u (.data (t.data ++ [t.tag, p] ++ List.replicate 6 0) false)
        ∧ p = (if t.poison.any id then 3 else 1) ∧ (u.fn fn).fault = l ∧ (u.fn fn).reply = f.reply)
    ∧ (off = 0x100 → n ≠ 16 → 0 < n → n ≤ 0x100 → ∃ u, read u zeros ∧ (u.fn fn).reply = f.reply
      ∧ (u.fn fn).badw = (if f.badw = 0xFFFF then f.badw else f.badw + 1))
    ∧ (off = 0x18 → n = 8 → exec (.outletRead fn off n) s
      = .next { s with completions := s.completions ++ [.data (leBytes 8 (s.fstat f).toNat) false] })
    ∧ (∀ slot c x, s.slotsOf fn false = [(slot, c, x)] → s.chan? c = some x → off = 0x1000 + 0x100 * slot →
      let w := if x.wide then 64 else 8
      n = 2 * w → (x.buffer = [] → exec (.outletRead fn off n) s = .next { s with completions := s.completions ++ [zeros] })
        ∧ ∀ k t l, x.buffer = (k, t) :: l → t.data.length = w → ∃ u p, read u (.data (t.data ++ [t.tag, p]
            ++ List.replicate (w - 2) 0) (t.poison.any id)) ∧ p = (if t.poison.any id then 3 else 1) ∧ (∀ j, j ≠ c → u.chan? j = s.chan? j)
          ∧ ∃ y, u.chan? c = some y ∧ y.buffer ++ y.spill = l ++ x.spill ∧ y.consumed = x.consumed + 1)
    ∧ (∀ t base pa, f.tenant = some t → f.window = some base → off + n ≤ 2 ^ 36 → 0 < n → n ≤ 64 - (base + off) % 64 → s.memErrors = [] →
      (s.walkTranslate t (base + off) kRead = .ok (.phys pa) → ∃ u, exec (.windowRead fn off n) s = .next u
        ∧ { u with fns := s.fns } = (s.sendReq (.fn fn) pa (.read n) 0).2 ∧ (∀ k, k ≠ fn → u.fn k = s.fn k)
        ∧ u.fn fn = { f with reads := f.reads ++ [[(s.nextReq, none)]] })
      ∧ (s.walkTranslate t (base + off) kWrite = .ok (.phys pa) → b.length = n → f.posted = [] →
        ∃ u, exec (.windowWrite fn off b psn) s = .next u ∧ (∀ k, k ≠ fn → u.fn k = s.fn k)
          ∧ { u with fns := s.fns } = (s.sendReq (.fn fn) pa (.write b (List.replicate n psn)) 0).2
          ∧ u.fn fn = { f with posted := [.window (base + off) off b psn (some [s.nextReq])] }))
    ∧ (∀ r, s.replies = [r] → r.src = .fn fn →
      (f.reads = [[(r.id, none)]] → f.posted = [] → (s.hostReply fn).completions = s.completions ++ [.data r.bytes (r.poison.any id)]
        ∧ ((s.hostReply fn).fn fn).reads = [])
      ∧ ∀ va o l c, f.reads = [] → f.posted = [.window va o l c (some [r.id])] → ((s.hostReply fn).fn fn).posted = [])
    ∧ (f.window = none → ∃ u v, exec (.windowRead fn off n) s = .next u ∧ u.completions = s.completions ++ [.unsupported] ∧ u.mem = s.mem
      ∧ exec (.windowWrite fn off b psn) s = .next v ∧ v.mem = s.mem ∧ v.completions = s.completions
      ∧ (v.fn fn).badw = (if f.badw = 0xFFFF then f.badw else f.badw + 1))
    ∧ (f.posted = [] → ∃ u, exec (.msixTableWrite fn off b) s = .next u ∧ { u with fns := s.fns } = s ∧ (∀ k, k ≠ fn → u.fn k = s.fn k)
      ∧ ∀ a, memByte (u.fn fn).msix a = if off ≤ 0x4000 + a ∧ 0x4000 + a < off + b.length ∧ a < 0x140
        then b.getD (0x4000 + a - off) 0 else memByte f.msix a)
    ∧ exec (.configurationRequest fn) s = .next { s with completions := s.completions ++ [if s.ready then .configDone else .configRetry] }

/-- R4, R257, R455-R458: power good boots a module that is not ready and counts the boot; a loss of power keeps the fuses
alone; a reset of port A loses every tenant; a function reset empties its channels and holds its tenant's networks; the
temperature holds every running network and lets those so held run again. -/
def Obligations.PowerTurns : Prop :=
  ∀ (s : State) (fn : Nat),
    let gone := fun (u : State) (on : Bool) => u.powered = on ∧ u.ready = false ∧ u.procs = [] ∧ u.nets = [] ∧ u.tenants = []
      ∧ u.chans = [] ∧ u.tiles = [] ∧ u.mem = [] ∧ u.regs = [] ∧ u.fns = [] ∧ u.cue = 0 ∧ u.fuses = s.fuses
    (∃ u, exec .powerLoss s = .next u ∧ gone u false) ∧ (∃ u, exec .thermalShutdown s = .next u ∧ gone u false)
    ∧ (∃ u, exec .portAReset s = .next u ∧ gone u s.powered)
    ∧ (s.ready = false → ∃ u, exec .powerGood s = .next u ∧ u.ready = true ∧ u.powered = true ∧ u.procs = [] ∧ u.tenants = [] ∧ u.mem = []
      ∧ u.fuses.banks = s.fuses.banks ∧ (s.fuses.bootCount < 32768 → u.fuses.bootCount = s.fuses.bootCount + 1 ∧ u.attests = 0)
      ∧ (32768 ≤ s.fuses.bootCount → u.fuses.bootCount = s.fuses.bootCount ∧ u.attests = 32768)
      ∧ ∀ t sl b, t < 384 → sl < 4 → b < 9 → s.fuses.banks = [36 * t + 9 * sl + b] → ((u.tile t).slice sl).st = .degraded b)
    ∧ (s.ready = true → exec .powerGood s = .next s)
    ∧ exec .thermalHot s = .next { s with hot := true }
    ∧ (∃ u, exec .thermalHold s = .next u ∧ { u with nets := s.nets, thermalHeld := s.thermalHeld } = s ∧ u.thermalHeld = true
      ∧ ∀ k n, mget s.nets k = some n → mget u.nets k = some (if n.st = .running then { n with st := .held, thermal := true } else n))
    ∧ (s.snapshot = none → ∃ u, exec .thermalResume s = .next u ∧ u.hot = false ∧ u.thermalHeld = false ∧ u.procs = s.procs
      ∧ ∀ k n, s.nets = [(k, n)] → u.nets = [(k, if n.st = .held ∧ n.thermal then { n with st := .running, thermal := false } else n)])
    ∧ (∀ f, mget s.fns fn = some f → s.slotsOf fn false = [] → fn % 33 ≠ 0 → ∃ u, exec (.functionReset fn) s = .next u
      ∧ (u.fn fn).cmdin = [] ∧ (u.fn fn).cmdCredits = 64 ∧ (u.fn fn).window = none ∧ (u.fn fn).tenant = f.tenant ∧ u.mem = s.mem
      ∧ u.procs = s.procs ∧ (f.posted = [] → u.chans = s.chans) ∧ (∀ j, j ≠ fn → u.fn j = s.fn j)
      ∧ (∀ t k n, f.tenant = some t → s.nets = [(k, n)] → n.tenant = t → n.st = .running →
        ∃ m, mget u.nets k = some m ∧ m = { n with st := .held, thermal := false })
      ∧ (∀ t, f.tenant = some t → ∃ l, (u.fn fn).fault = faultToken bareHead :: faultToken (noticeWord 0xC0 0 0 0) :: l)
      ∧ (f.tenant = none → (u.fn fn).fault = f.fault))
    ∧ (∀ f, s.fns = [(33, f)] → f.slots = [] → ∃ u v, exec .portBReset s = .next u ∧ exec (.functionReset 33) s = .next v ∧ u = v
      ∧ (u.fn 33).cmdin = [] ∧ (u.fn 33).window = none ∧ u.mem = s.mem
      ∧ ∃ l, (u.fn 33).fault = faultToken bareHead :: faultToken (noticeWord 0xC0 0 0 0) :: l)

/-! ## Commands of the Prompter (ch. 16) -/

/-- R31, R251-R257, R305, R378, R423, R424, R449, R452-R457: the management commands of a physical function, and ATTEST:
what each makes of the state, and its reply. -/
def Obligations.ManagementCommands : Prop :=
  ∀ (s : State) (fn : Nat) (hd x y z : Word), hd.toNat / 2 ^ 32 % 65536 = 0 →
    let ok := fun (c : Instr) (n : Nat) (res : List Nat) (t : State) => s.answers c fn hd n 0 res t
    let k := x.toNat
    let q := quotaOf y.toNat z.toNat
    let idx := x.toNat / 2 ^ 32 % 2 ^ 24
    let tile := idx / 36
    let sl := idx % 36 / 9
    let bank := idx % 9
    (fn % 33 = 0 → (∀ root s1, s.asks fn 0x01 hd [x, y, z] → k = 0 → y.toNat % 2 ^ 15 = 0 → q.ok = true → (s.fn fn).tenant = none →
      mget s.tenants 0 = none → s.allocPage 4096 = some (root, s1) → ok (.tenantCreate fn) 3 [0] ({ s1 with
        tenants := mset s1.tenants 0 { fn, quota := q, root, tables := [root], gens := [], faultq := [], reserve := [] } }.modFn fn
          (fun f => { f with tenant := some 0 })))
    ∧ (∀ t, s.asks fn 0x02 hd [x, y, z] → k < 32 → y.toNat % 2 ^ 15 = 0 → mget s.tenants k = some t → q.ok = true →
      (q.covers (s.charges k) = true → ok (.tenantQuota fn) 3 [] { s with tenants := mset s.tenants k { t with quota := q } })
      ∧ (q.covers (s.charges k) = false → s.answers (.tenantQuota fn) fn hd 3 6 [] s))
    ∧ (∀ t, s.asks fn 0x03 hd [x] → k < 32 → mget s.tenants k = some t → t.fn ≠ fn → (s.fn t.fn).busy = none → s.netsOf k = [] →
      s.accepted = [] → s.flight = [] → s.queued = [] → s.remotes = [] → ∃ u, exec (.tenantDestroy fn) s = .next u
        ∧ s.replied u fn 1 (replyOf hd (headerNet hd) 0 []) ∧ mget u.tenants k = none ∧ (∀ j, j ≠ k → mget u.tenants j = mget s.tenants j)
        ∧ (u.fn t.fn).tenant = none ∧ (u.fn t.fn).window = none ∧ u.procs = s.procs ∧ u.nets = s.nets ∧ u.mem = s.mem
        ∧ (∀ r, mget s.regs r = none → mget u.regs r = none) ∧ (∀ r g, mget s.regs r = some g → mget u.regs r
          = some (if g.tenant = k then { g with revoking := false, revoked := true } else g)) ∧ (t.root ∈ t.tables →
          mget u.usedPages t.root = none))
    ∧ (s.asks fn 0x04 hd [x] → x.toNat / 2 ^ 36 % 2 ^ 17 = 0 → ok (.topoSet fn) 1 [] (if x.getLsbD 53
      then { s with self := some (k / 2 ^ 54) } else { s with routes := mset s.routes (k / 2 ^ 54) (x.setWidth 36) }))
    ∧ (s.asks fn 0x05 hd [x] → k % 2 ^ 54 = 0 → (s.self = some (k / 2 ^ 54) ∨ s.reachable (k / 2 ^ 54) = true →
        ok (.cueSync fn) 1 [] { s with cueRef := some (k / 2 ^ 54) })
      ∧ (s.self ≠ some (k / 2 ^ 54) → s.reachable (k / 2 ^ 54) = false → s.answers (.cueSync fn) fn hd 1 11 [] s))
    ∧ (s.asks fn 0x06 hd [x] → k / 2 ^ 16 % 2 ^ 16 = 0 →
      (k / 2 ^ 56 = 0 → tile < 384 → ok (.healthReadCec fn) 1 [(vget ((s.tile tile).slice sl).cec bank 0).toNat] s)
      ∧ (k / 2 ^ 56 = 1 → idx < 256 →
        ok (.healthReadServer fn) 1 [(s.server idx).correctable.toNat * 2 ^ 32 + (s.server idx).uncorrectable.toNat] s)
      ∧ (k / 2 ^ 56 = 2 → tile < 384 → 1 ≤ k % 65536 → k % 65536 ≤ 64 →
        (vget ((s.tile tile).slice sl).cec bank 0).toNat < k % 65536 → ok (.healthSetThreshold fn) 1 []
          (s.setTile tile ((s.tile tile).modSlice sl (fun v => { v with threshold := v.threshold.setIfInBounds bank (k % 65536) }))))
      ∧ (k / 2 ^ 56 = 3 → ∃ t, ok (.healthClear fn) 1 [] t ∧ { t with tiles := s.tiles, servers := s.servers } = s
        ∧ (∀ j, (t.tile j).spad = (s.tile j).spad ∧ ∀ v < 4, ((t.tile j).slice v).cec = Vector.replicate 9 0
          ∧ ((t.tile j).slice v).st = ((s.tile j).slice v).st ∧ ((t.tile j).slice v).threshold = ((s.tile j).slice v).threshold)
        ∧ ∀ j, (t.server j).correctable = 0 ∧ (t.server j).uncorrectable = 0 ∧ (t.server j).links = (s.server j).links))
    ∧ (s.asks fn 0x07 hd [x] → k % 2 ^ 48 = 0 →
      let t := k / 2 ^ 55
      let v := k / 2 ^ 53 % 4
      let b := k / 2 ^ 49 % 16
      t < 384 → b < 9 → ((s.tile t).slice v).st = .normal → ok (.bankRetire fn) 1 [] ((if x.getLsbD 48
        then { s with fuses := { s.fuses with banks := nsAdd s.fuses.banks (36 * t + 9 * v + b) } } else s).setTile t ((s.tile t).modSlice v (fun w =>
          if b < 8 then { w with st := .sweeping b 0, cec := w.cec.setIfInBounds b 0, promoted := false }
          else { w with st := .degraded 8, stale := [], cec := w.cec.setIfInBounds 8 0 }))))
    ∧ (∀ ks kk (n : Nat × Net), s.asks fn 0x08 hd [x] → k % 2 ^ 36 = 0 → s.picks = kk :: ks → kk % 2 = 0 → s.nets = [(n.1, n.2)] → n.2.st = .running →
      let pkg := k / 2 ^ 54
      let cnt := k / 2 ^ 36 % 64
      2 ≤ cnt → cnt ≤ 36 → cnt ≤ (s.livePorts pkg).length → ∃ u, exec (.snapshot fn) s = .next u ∧ u.snapshot = some (fn, [n.1])
        ∧ u.nets = [(n.1, { n.2 with st := .held, thermal := false })] ∧ (u.fn fn).busy.isSome = true ∧ (u.fn fn).reply = (s.fn fn).reply
        ∧ u.procs = s.procs ∧ u.mem = s.mem
        ∧ u.bulk = some { pkg, key := BitVec.ofNat 12 (k / 2 ^ 42), ports := (s.livePorts pkg).take cnt, next := 0, again := [] }
        ∧ ∀ p ∈ (s.livePorts pkg).take cnt, (u.vport p).bulk = some (BitVec.ofNat 12 (k / 2 ^ 42)))
    ∧ (∀ b, (s.fn fn).busy = some b → b.header.toNat / 2 ^ 56 = 0x08 → s.bulkDone = false → exec (.snapshot fn) s = .next s)
    ∧ (∀ b (n : Nat × Net), (s.fn fn).busy = some b → b.header.toNat / 2 ^ 56 = 0x08 → b.mute = false → (s.fn fn).cmdin = [] → (s.fn fn).replyWait = [] →
      s.bulkDone = true → s.snapshot = some (fn, [n.1]) → s.nets = [(n.1, n.2)] → n.2.st = .held → s.thermalHeld = false →
      ∃ u, exec (.snapshot fn) s = .next u ∧ u.snapshot = none ∧ u.nets = [(n.1, { n.2 with st := .running, thermal := false })]
        ∧ (u.fn fn).busy = none ∧ (u.fn fn).reply ++ (u.fn fn).replyWait.flatten
          = (s.fn fn).reply ++ replyOf b.header (headerNet b.header) 0 [] ∧ ∀ p ∈ b.held, (u.vport p).bulk = none)
    ∧ (s.asks fn 0x09 hd [] → fn < 33 → ∃ u, exec (.moduleReset fn) s = .next u ∧ u.powered = s.powered ∧ u.ready = false ∧ u.procs = []
      ∧ u.tenants = [] ∧ u.mem = [] ∧ u.fns = [] ∧ u.fuses = s.fuses))
    ∧ ∀ a n0 n1 n2 n3 : Word, s.asks fn 0x0A hd [a, n0, n1, n2, n3] →
      (32768 ≤ s.attests → s.answers (.attest fn) fn hd 5 12 [] s)
      ∧ ∀ t l, s.attests < 32768 → a.toNat % 8 = 0 → (s.fn fn).tenant = some t → s.prompterPieces t a.toNat 5584 kWrite = some l →
        let r := s.attestation fn [a.toNat, n0.toNat, n1.toNat, n2.toNat, n3.toNat]
        ok (.attest fn) 5 [5584] { s.writePieces r l with attests := s.attests + 1 } ∧ r.length = 5584
          ∧ leAt r 0 4 = 0x54535441 ∧ (fn < 66 → t < 32 → s.fuses.bootCount < 65536 →
            leAt r 43 2 = s.fuses.bootCount ∧ leAt r 48 8 = s.cue % 2 ^ 64) ∧ (r.drop 96).take 32 = leBytes 8 n0.toNat ++ leBytes 8 n1.toNat ++ leBytes 8 n2.toNat ++ leBytes 8 n3.toNat

/-- R34, R35, R38, R40, R44, R115, R401, R411-R413, R449, R453: the commands that create, start, hold, kill, pre-empt and
resume a network, and its status, with what they do to its processes. -/
def Obligations.NetworkCommands : Prop :=
  ∀ (s : State) (fn k pid : Nat) (hd x y : Word) (n : Net) (p : Proc) (t : Tenant),
    (s.fn fn).tenant = some k → mget s.tenants k = some t →
    let net := headerNet hd
    let key := 256 * k + net
    let ends := fun (c : Instr) (args : Nat) (res : List Nat) (good : State → Proc → Prop) => ∃ u q, exec c s = .next u
      ∧ s.replied u fn args (replyOf hd net 0 res) ∧ u.proc? pid = some q ∧ good u q
    (∀ b m logical physical placed number, s.asks fn 0x10 hd [x, y, 0] → hd.toNat / 2 ^ 32 % 65536 = 0 → s.memErrors = [] →
      0 < y.toNat → y.toNat < 2 ^ 32 → (s.prompterPieces k x.toNat y.toNat kRead).bind (fun l => (s.readPieces l).2) = some b →
      readImage b = .ok m → m.wellFormed = true → m.logicalTiles = some logical → m.descs.all (fun d => decide (d.prio ≤ t.quota.priomax)) = true →
      s.flight = [] → s.queued = [] → s.remotes = [] →
      m.channels.all channelRange = true → m.sections = [] → m.boxes = [] → (m.charges 0).resv = 0 → m.descs.length ≤ 3072 →
      t.quota.covers ((s.charges k).plus (m.charges m.tiles.length)) = true →
      s.place (m.tiles.map (assoc logical)) (m.rings.map (fun r => r.tiles.map (assoc logical))) = some (physical, placed) →
      (List.range 255).find? (fun j => (mget s.nets (256 * k + j)).isNone) = some number →
      let gen := mgetD t.gens number 0 % 255 + 1
      ∃ u v, exec (.netCreate fn) s = .next u ∧ s.replied u fn 3 (replyOf hd number 0 [gen * 256 + number, m.signature.toNat, 0])
        ∧ mget u.nets (256 * k + number) = some v ∧ v.st = .created ∧ v.number = number ∧ v.gen = gen ∧ v.tenant = k
        ∧ v.procs.length = m.descs.length ∧ ∀ j ∈ v.procs, s.proc? j = none ∧ ∃ q, u.proc? j = some q ∧ q.st = .dormant
          ∧ q.desc ∈ m.descs ∧ q.pc = q.desc.entry ∧ q.rd 3 = q.desc.arg ∧ q.priv = false ∧ q.eff = q.desc.prio)
    ∧ (mget s.nets key = some n → n.gen = hd.toNat / 2 ^ 32 % 256 →
      (s.asks fn 0x11 hd [0] → n.st = .created → s.thermalHeld = false → s.proc? pid = some p → pid ∈ n.procs → p.st = .dormant →
        ends (.netStart fn) 1 [] (fun u q => q = { p with
            st := .ready, xq := p.xq.map (fun v => { v with posted := 0, doneCount := 0, arrived := 0 }), coll := 0 } ∧ u.mem = s.mem ∧ (∀ j, j ∉ n.procs → u.proc? j = s.proc? j)
          ∧ ∃ m, mget u.nets key = some m ∧ m.st = .running ∧ m.procs = n.procs
            ∧ m.signature = (match n.coll with
              | some g => n.signature ||| BitVec.ofNat 64 (g.digest.devcnt * 64)
              | none => n.signature)))
      ∧ (∀ o c, s.asks fn 0x11 hd [1, 0, x] → n.st = .created → s.thermalHeld = false → n.offices = [(o, c)] → o < 32 → x.toNat < 2 ^ 32 →
        ∃ u, exec (.netStart fn) s = .next u ∧ s.replied u fn 3 (replyOf hd net 0 [])
          ∧ (vget u.offices o Office.init).count = x.toNat ∧ (vget u.offices o Office.init).next = 0)
      ∧ (s.asks fn 0x12 hd [] → n.procs = [pid] → s.proc? pid = some p → p.net = key → p.st ≠ .retired → n.st ≠ .completed →
        n.tenant = k → t.fn = fn → s.mustWait p = false → ∃ u q m, exec (.netKill fn) s = .next u ∧ mget u.nets key = none
          ∧ u.proc? pid = some q ∧ q.st = .retired ∧ m.killed = true ∧ m.number = n.number ∧ m.gen = n.gen ∧ m.signature = n.signature
          ∧ s.replied u fn 0 (completionReport m ++ replyOf hd net 0 []))
      ∧ (s.asks fn 0x13 hd [] →
        (n.st = .running → s.answers (.netHold fn) fn hd 0 0 [] { s with nets := mset s.nets key { n with st := .held, thermal := false } })
        ∧ (n.st ≠ .running → s.answers (.netHold fn) fn hd 0 6 [] s))
      ∧ (x.toNat < 4095 → n.procs = [pid] → s.proc? pid = some p → p.desc.lproc = x.toNat → s.ringOf pid = none → n.tenant = k →
        (n.st = .running ∨ n.st = .held) →
        let taken := fun (u : State) (q : Proc) => q.st = .preempted false ∧ q.pc = p.pc ∧ q.g = p.g ∧ q.rows = p.rows ∧ q.masks = p.masks
          ∧ q.acc = p.acc ∧ u.mem = s.mem ∧ ∀ j, j ≠ pid → u.proc? j = s.proc? j
        let ready := p.st = .ready ∧ p.convoys = [] ∧ p.pend = none ∧ (s.tile p.tile).pendingStores pid = [] ∧ s.captureReady pid = true
          ∧ s.spillCharge k + p.areaPages false ≤ t.quota.spill
        (s.asks fn 0x14 hd [x, 0] → ready → ends (.netPreempt fn) 2 [1] taken)
        ∧ (s.asks fn 0x14 hd [x, y] → s.cue < y.toNat → ∃ u b, exec (.netPreempt fn) s = .next u ∧ u.procs = s.procs
          ∧ (u.fn fn).busy = some b ∧ b.header = hd ∧ b.args = [x, y] ∧ b.mute = false ∧ (u.fn fn).reply = (s.fn fn).reply
          ∧ mget u.nets key = some { n with deadline := some (y.toNat, x.toNat, false) })
        ∧ (∀ b, ready → n.deadline = some (y.toNat, x.toNat, false) → y.toNat ≤ s.cue → s.snapshot = none → t.fn = fn →
          (s.fn fn).busy = some b → b.header = hd → b.args = [x, y] → b.mute = false → hd.toNat / 2 ^ 56 = 0x14 → (s.fn fn).cmdin = [] →
          ∃ u q, exec (.cueDeadlineCapture key) s = .next u ∧ u.proc? pid = some q ∧ taken u q ∧ (u.fn fn).busy = none
            ∧ (u.fn fn).reply ++ (u.fn fn).replyWait.flatten
              = (s.fn fn).reply ++ (s.fn fn).replyWait.flatten ++ replyOf hd net 0 [1]
            ∧ (mget u.nets key).map (·.deadline) = some none)
        ∧ (s.asks fn 0x15 hd [x] → s.thermalHeld = false →
          let runs := fun (u : State) => (mget u.nets key).map (·.st) = some .running
          (p.st = .trapped → p.park = none → p.trap.tcause.toNat % 256 ∉ [0x10, 0x11, 0x42, 0x43, 0xA2] →
            ends (.netResume fn) 1 [1] (fun u q => runs u ∧ q = { p with
              st := .ready, pc := p.trap.epc, convoys := p.convoys.map (fun c => { c with stopped := false }) }))
          ∧ ∀ tile, p.st = .preempted false → p.kept = false → p.saved = none → p.moved = none → p.ctxLost = false → s.homes k pid p [] = [tile] →
            ends (.netResume fn) 1 [1] (fun u q => runs u ∧ q.st = .ready ∧ q.tile = tile ∧ q.pc = p.pc ∧ q.g = p.g ∧ q.rows = p.rows
              ∧ q.masks = p.masks ∧ q.acc = p.acc)))
      ∧ (s.asks fn 0x16 hd [x] → x.toNat < 4096 → s.lproc? n x.toNat = some (pid, p) →
        let h := fun j => (p.queueAt j).handle.toNat
        let place := p.tile * 2 ^ 47 + p.slot * 2 ^ 44
        ∃ w, s.answers (.netStatus fn) fn hd 1 0 [w, n.st.code, h 1 * 2 ^ 32 + h 0, h 3 * 2 ^ 32 + h 2] s
          ∧ (p.st = .dormant → w = place) ∧ (p.st = .ready → w = 2 ^ 60 + place)
          ∧ (p.st = .parked .memoryReply → p.cueWait = [] → w = 2 * 2 ^ 60 + 3 * 2 ^ 56 + place)
          ∧ (p.st = .trapped → w = 3 * 2 ^ 60 + place + p.trap.tcause.toNat % 256 * 2 ^ 36)))

/-- R153, R162, R301, R387, R425, R438, R446, R453: a moved channel end goes to another tile or package; a port is bound
to a host-end slot, a reservation made, a collective group declared. -/
def Obligations.BindingCommands : Prop :=
  ∀ (s : State) (fn k pid : Nat) (hd x y : Word) (n : Net) (p : Proc) (t : Tenant),
    (s.fn fn).tenant = some k → mget s.tenants k = some t → n.tenant = k → n.gen = hd.toNat / 2 ^ 32 % 256 →
    let net := headerNet hd
    let key := 256 * k + net
    mget s.nets key = some n →
    (s.asks fn 0x17 hd [x, y] → x.toNat < 4096 → y.toNat % 2 ^ 45 = 0 → s.lproc? n x.toNat = some (pid, p) →
      let pkg := y.toNat / 2 ^ 54
      let tile := y.toNat / 2 ^ 45 % 512
      tile < 384 → p.moved = none →
      (∀ b, p.st = .preempted b → p.kept = false → pkg = s.selfPkg → tile ≠ p.tile → s.tileFree tile = true →
        (s.portsFitWith [(pid, tile)] = true → s.answers (.chanRebind fn) fn hd 2 0 [] (s.setProc pid { p with tile }))
        ∧ (s.portsFitWith [(pid, tile)] = false → s.answers (.chanRebind fn) fn hd 2 5 [] s))
      ∧ (∀ b q c z d, p.st = .preempted b → p.kept = false → pkg ≠ s.selfPkg → s.reachable pkg = true → p.ports = [(q, c, true)] →
        p.launches = [] → s.chan? c = some z → z.circuits = [] → z.prods = [d] → d.src = .proc pid q → s.cacheFull (.circuit c) = false →
        s.chans.all (fun v => v.2.resv == 0) = true → ∃ u r, exec (.chanRebind fn) s = .next u ∧ s.replied u fn 2 (replyOf hd net 0 [])
          ∧ u.mem = s.mem ∧ u.vout = s.vout ++ [.moved pkg p.desc.lproc (z.movedEnd c q 1)]
          ∧ u.chan? c = some { z.toward pkg with prods := [{ d with src := .remote pkg, growing := 0 }] }
          ∧ u.proc? pid = some r ∧ r.ports = [] ∧ r.st = p.st ∧ r.moved = some pkg ∧ r.savePages = 0)
      ∧ (pkg ≠ s.selfPkg → s.reachable pkg = false → ∀ b, p.st = .preempted b → s.answers (.chanRebind fn) fn hd 2 11 [] s)
      ∧ (p.st = .ready → s.answers (.chanRebind fn) fn hd 2 6 [] s))
    ∧ (s.asks fn 0x18 hd [x] → x.toNat < 2 ^ 36 → x.getLsbD 13 = false → n.st = .created →
      let slot := x.toNat / 2 ^ 32 % 16
      let port := x.toNat / 2 ^ 16 % 16
      let host := x.getLsbD 15
      let wide := x.getLsbD 14
      let slots := x.toNat % 2 ^ 13
      let e : End := .proc pid port
      let h : End := .host fn slot
      let bound := (s.addChan key (2 ^ 20 + 4096 + slot) slots 0 wide false (if host then e else h) [if host then h else e]).2
      s.lproc? n (x.toNat / 2 ^ 20 % 4096) = some (pid, p) → (if wide then 8 else 4) ≤ slots → slots ≤ 4096 → mget p.ports port = none →
      mget (s.fn fn).slots slot = none → (s.charges k).maxchan + 2 ≤ t.quota.maxchan →
      bound.portsFitTile (((bound.onTile p.tile []).filter (fun v => v.2.inSlot)).map (·.1)) = true →
      ∃ u c z q, exec (.chanHost fn) s = .next u ∧ s.replied u fn 1 (replyOf hd net 0 [])
        ∧ mget (u.fn fn).slots slot = some { chan := c, hostProduces := host } ∧ s.chan? c = none ∧ u.chan? c = some z
        ∧ z.slots = slots ∧ z.wide = wide ∧ z.net = key ∧ z.buffer = [] ∧ z.consumer = (if host then e else h)
        ∧ (z.prods.map (fun d => (d.src, d.credits))) = [(if host then h else e, slots)]
        ∧ u.proc? pid = some q ∧ mget q.ports port = some (c, !host))
    ∧ (s.asks fn 0x19 hd [x] → x.toNat < 2 ^ 18 → s.lproc? n (x.toNat % 4096) = some (pid, p) →
      let units := x.toNat / 2 ^ 12
      units ≤ 48 → n.st ≠ .completed → p.st ≠ .retired → (s.charges k).resv - p.resvNext + units ≤ t.quota.resv →
      let others := total (s.procs.filter (fun v => v.1 != pid && v.2.st != .retired)) (fun v => v.2.resvNext)
      (others + units ≤ 48 → s.answers (.resvServer fn) fn hd 1 0 [] (s.setProc pid { p with resvNext := units }))
      ∧ (48 < others + units → s.answers (.resvServer fn) fn hd 1 5 [] s))
    ∧ (∀ tab, s.asks fn 0x22 hd [x, y] → n.st = .created →
      let d := x.toNat % 1024
      let rank := x.toNat / 1024 % 1024
      let tag := BitVec.ofNat 32 (x.toNat / 2 ^ 32)
      s.tagTaken key tag = false → s.lproc? n (x.toNat / 2 ^ 20 % 4096) = some (pid, p) → s.rankTable k y.toNat d = some tab → rank < d →
      (∀ e ∈ tab, e < 1024) → distinct tab = true → (∀ e ∈ tab.zipIdx, s.self = some e.1 → e.2 = rank) →
      (∀ e ∈ tab, s.self = some e ∨ s.reachable e = true) → s.answers (.collBind fn) fn hd 2 0 []
        { s with nets := mset s.nets key { n with coll := some { digest := { devcnt := d, ranks := tab, tag }, rank, proc := pid } } })

/-- R83, R307, R309, R311, R315, R426, R427, R429, R447, R453: pages are allocated zeroed and mapped, unmapped and freed
once nothing can reach them; a mapped page is what a walk finds; registrations, imports and the window are entered. -/
def Obligations.MappingCommands : Prop :=
  ∀ (s : State) (fn k : Nat) (hd x y z : Word) (t : Tenant), (s.fn fn).tenant = some k → mget s.tenants k = some t →
    hd.toNat / 2 ^ 32 % 65536 = 0 →
    let ok := fun (c : Instr) (n : Nat) (res : List Nat) (u : State) => s.answers c fn hd n 0 res u
    let va := x.toNat
    let size := y.toNat / 2 ^ 8 % 16
    let begun := fun (u : State) => (u.fn fn).reply = (s.fn fn).reply ∧ u.procs = s.procs
      ∧ (∃ b, (u.fn fn).busy = some b ∧ b.header = hd ∧ b.mute = false ∧ b.seenAge = s.nextReq)
    let flushed := fun (u : State) => (∀ j v, mget s.tiles j = some v → mget u.tiles j
        = some (if v.owner = some k then { v with tlb := [], denied := [] } else v))
      ∧ ∀ d < 4, ∀ c ∈ (vget u.dies d Die.init).cache, c.1 ≠ k
    (∀ pa s1 s2, s.asks fn 0x1A hd [x, y] → y.toNat % 4 = 0 → y.toNat / 32 % 8 = 0 → y.toNat < 4096 → pageOk va size = true →
      s.registered k va (pageBytes size) = false → s.anyMapped k va (pageBytes size) = false →
      s.allocPage (pageBytes size) = some (pa, s1) →
      s1.mapPage k va size (localLeaf pa size (y.getLsbD 2) (y.getLsbD 3) (y.getLsbD 4)) = some s2 → ok (.mapAlloc fn) 2 [] s2
        ∧ pa % pageBytes size = 0 ∧ pa + pageBytes size ≤ memLimit ∧ ∀ i < pageBytes size, memByte s1.mem (pa + i) = 0)
    ∧ (s.asks fn 0x1A hd [x, y] → y.toNat % 4 = 0 → y.toNat / 32 % 8 = 0 → y.toNat < 4096 → pageOk va size = true →
      s.registered k va (pageBytes size) = false → s.anyMapped k va (pageBytes size) = true → s.answers (.mapAlloc fn) fn hd 2 6 [] s)
    ∧ (∀ t2 t3 t4 e1 e2 e3 pa rd w xx, s.memErrors = [] → s.memPoison = [] →
      let a4 := t4 + 8 * levelIndex va 4
      let ptr := fun (table level e next : Nat) => let a := table + 8 * levelIndex va level
        s.entryAt a = some e ∧ readPte e level = .pointer next ∧ (a + 8 ≤ a4 ∨ a4 + 8 ≤ a)
      ptr t.root 1 e1 t2 → ptr t2 2 e2 t3 → ptr t3 3 e3 t4 → pa % 4096 = 0 → pa + 4096 ≤ memLimit →
        ∃ u, s.mapPage k va 0 (localLeaf pa 0 rd w xx) = some u ∧ u.walkAt k va = .page 4096 rd w xx (.phys pa)
          ∧ ∀ a, a < a4 ∨ a4 + 8 ≤ a → memByte u.mem a = memByte s.mem a)
    ∧ (∀ table sz l, s.asks fn 0x1B hd [x] → canonDev x = true → s.pageAt k va = some (table, sz, l) → s.registered k va (pageBytes sz) = false →
      let lo := table + 8 * levelIndex (va % 2 ^ 48) (leafLevel sz)
      ∃ u, exec (.mapFree fn) s = .next u ∧ begun u ∧ flushed u ∧ (s.memErrors = [] → ∀ a, memByte u.mem a
        = if lo ≤ a ∧ a < lo + 8 * runLeaves sz then 0 else memByte s.mem a))
    ∧ (s.asks fn 0x1D hd [] → ∃ u, exec (.mapSync fn) s = .next u ∧ begun u ∧ flushed u ∧ u.mem = s.mem)
    ∧ (∀ b c, (s.fn fn).busy = some b → b.mute = false → (s.fn fn).cmdin = [] →
      (b.header.toNat / 2 ^ 56 = 0x1B ∧ c = .mapFree fn) ∨ (b.header.toNat / 2 ^ 56 = 0x1D ∧ c = .mapSync fn) →
      (s.olderDone k b.seenAge = false → exec c s = .next s)
      ∧ (s.olderDone k b.seenAge = true → ∃ u, exec c s = .next u ∧ (u.fn fn).busy = none ∧ u.mem = s.mem ∧ u.procs = s.procs
        ∧ (∀ pa ∈ b.held, mget u.usedPages pa = none) ∧ (u.fn fn).reply ++ (u.fn fn).replyWait.flatten
          = (s.fn fn).reply ++ (s.fn fn).replyWait.flatten ++ replyOf b.header (headerNet b.header) 0 []))
    ∧ (∀ s2, s.asks fn 0x1C hd [x, y, z] → y.toNat % 4 = 0 → y.toNat / 16 % 16 = 0 → y.toNat / 4096 % 2 ^ 30 = 0 → z.toNat < 2 ^ 30 →
      z.toNat * 4096 % pageBytes size = 0 → pageOk va size = true → s.registered k va (pageBytes size) = false →
      s.anyMapped k va (pageBytes size) = false → s.mapPage k va size (remoteLeaf (y.toNat / 2 ^ 54) (y.toNat / 2 ^ 42 % 4096) z.toNat size
        (y.getLsbD 2) (y.getLsbD 3)) = some s2 → ok (.mapRemote fn) 3 [] s2)
    ∧ (∀ key, s.asks fn 0x1E hd [x, y, z] → y.toNat / 8 % 2 ^ 29 = 0 → z.toNat < 2 ^ 32 → va % 4096 = 0 → canonDev x = true →
      let pages := y.toNat / 2 ^ 32
      pages ≠ 0 → va % 2 ^ 48 + pages * 4096 ≤ 2 ^ 48 →
      s.regPages k va (va + 4096 * pages) (y.getLsbD 0) (y.getLsbD 1) (y.getLsbD 2) pages = true → key < 4096 →
      ((mget s.regs key).all (·.revoked) = true) → (∀ j < key, (mget s.regs j).any (fun r => !r.revoked) = true) →
      s.cacheFull (.registration key) = false →
      let gen := mgetD s.regGens key 0 % 4095 + 1
      ok (.regCreate fn) 3 [gen * 4096 + key] { s with
        regs := mset s.regs key { tenant := k, gen := BitVec.ofNat 12 gen, base := va, pages, atomic := y.getLsbD 2, write := y.getLsbD 1
                                  read := y.getLsbD 0, allowed := BitVec.ofNat 32 z.toNat, revoking := false, revoked := false }
        regGens := mset s.regGens key gen })
    ∧ (∀ r, s.asks fn 0x1F hd [x] → va < 4096 → mget s.regs va = some r →
      (r.tenant ≠ k → s.answers (.regRevoke fn) fn hd 1 3 [] s)
      ∧ (r.tenant = k → (r.revoked = true ∨ r.revoking = true) → s.answers (.regRevoke fn) fn hd 1 6 [] s)
      ∧ (r.tenant = k → r.revoked = false → r.revoking = false → ∃ u, exec (.regRevoke fn) s = .next u ∧ begun u ∧ u.mem = s.mem
        ∧ u.regs = mset s.regs va { r with revoking := true }))
    ∧ (s.asks fn 0x20 hd [x] → va < 2 ^ 22 →
      let pkg := va / 4096
      s.cacheFull (.imported k pkg (x.setWidth 12)) = false →
      let put := fun (g : BitVec 12) => s.imports.filter (fun i => !(i.tenant == k && i.pkg == pkg && i.key == x.setWidth 12))
        ++ [{ tenant := k, pkg, key := x.setWidth 12, gen := g }]
      (∀ r, s.self = some pkg → s.reg? (x.setWidth 12) = some r → ok (.regImport fn) 1 [] { s with imports := put r.gen })
      ∧ (s.self ≠ some pkg → s.reachable pkg = true → ∃ g, ok (.regImport fn) 1 [] { s with imports := put g, draws := s.draws + 1 })
      ∧ (s.self ≠ some pkg → s.reachable pkg = false → s.answers (.regImport fn) fn hd 1 11 [] s))
    ∧ (s.asks fn 0x21 hd [x] → (va % 2 ^ 36 = 0 → canonDev x = true → ok (.windowSet fn) 1 [] (s.modFn fn (fun f => { f with window := some va })))
      ∧ (va % 2 ^ 36 ≠ 0 → s.answers (.windowSet fn) fn hd 1 3 [] s))
end

