-- ==== Sys2Proof/Laws/State.lean ====
section
/-!
SUPPORT. What each named update of the state leaves as it was: one lemma per field, so that no proof unfolds a record
update.
-/

namespace Sys2Proof.Machine

/-! ## `setProc` changes `procs` -/

@[simp] theorem State.setProc_powered (s : State) (pid : Nat) (p : Proc) : (s.setProc pid p).powered = s.powered := rfl
@[simp] theorem State.setProc_ready (s : State) (pid : Nat) (p : Proc) : (s.setProc pid p).ready = s.ready := rfl
@[simp] theorem State.setProc_hot (s : State) (pid : Nat) (p : Proc) : (s.setProc pid p).hot = s.hot := rfl
@[simp] theorem State.setProc_thermalHeld (s : State) (pid : Nat) (p : Proc) : (s.setProc pid p).thermalHeld = s.thermalHeld := rfl
@[simp] theorem State.setProc_cue (s : State) (pid : Nat) (p : Proc) : (s.setProc pid p).cue = s.cue := rfl
@[simp] theorem State.setProc_cueRef (s : State) (pid : Nat) (p : Proc) : (s.setProc pid p).cueRef = s.cueRef := rfl
@[simp] theorem State.setProc_frame (s : State) (pid : Nat) (p : Proc) : (s.setProc pid p).frame = s.frame := rfl
@[simp] theorem State.setProc_snapTime (s : State) (pid : Nat) (p : Proc) : (s.setProc pid p).snapTime = s.snapTime := rfl
@[simp] theorem State.setProc_cut (s : State) (pid : Nat) (p : Proc) : (s.setProc pid p).cut = s.cut := rfl
@[simp] theorem State.setProc_cur (s : State) (pid : Nat) (p : Proc) : (s.setProc pid p).cur = s.cur := rfl
@[simp] theorem State.setProc_strike (s : State) (pid : Nat) (p : Proc) : (s.setProc pid p).strike = s.strike := rfl
@[simp] theorem State.setProc_contexts (s : State) (pid : Nat) (p : Proc) : (s.setProc pid p).contexts = s.contexts := rfl
@[simp] theorem State.setProc_nets (s : State) (pid : Nat) (p : Proc) : (s.setProc pid p).nets = s.nets := rfl
@[simp] theorem State.setProc_tenants (s : State) (pid : Nat) (p : Proc) : (s.setProc pid p).tenants = s.tenants := rfl
@[simp] theorem State.setProc_chans (s : State) (pid : Nat) (p : Proc) : (s.setProc pid p).chans = s.chans := rfl
@[simp] theorem State.setProc_handleGens (s : State) (pid : Nat) (p : Proc) : (s.setProc pid p).handleGens = s.handleGens := rfl
@[simp] theorem State.setProc_queueHandles (s : State) (pid : Nat) (p : Proc) : (s.setProc pid p).queueHandles = s.queueHandles := rfl
@[simp] theorem State.setProc_tiles (s : State) (pid : Nat) (p : Proc) : (s.setProc pid p).tiles = s.tiles := rfl
@[simp] theorem State.setProc_dies (s : State) (pid : Nat) (p : Proc) : (s.setProc pid p).dies = s.dies := rfl
@[simp] theorem State.setProc_offices (s : State) (pid : Nat) (p : Proc) : (s.setProc pid p).offices = s.offices := rfl
@[simp] theorem State.setProc_mem (s : State) (pid : Nat) (p : Proc) : (s.setProc pid p).mem = s.mem := rfl
@[simp] theorem State.setProc_memPoison (s : State) (pid : Nat) (p : Proc) : (s.setProc pid p).memPoison = s.memPoison := rfl
@[simp] theorem State.setProc_memErrors (s : State) (pid : Nat) (p : Proc) : (s.setProc pid p).memErrors = s.memErrors := rfl
@[simp] theorem State.setProc_servers (s : State) (pid : Nat) (p : Proc) : (s.setProc pid p).servers = s.servers := rfl
@[simp] theorem State.setProc_flight (s : State) (pid : Nat) (p : Proc) : (s.setProc pid p).flight = s.flight := rfl
@[simp] theorem State.setProc_queued (s : State) (pid : Nat) (p : Proc) : (s.setProc pid p).queued = s.queued := rfl
@[simp] theorem State.setProc_replies (s : State) (pid : Nat) (p : Proc) : (s.setProc pid p).replies = s.replies := rfl
@[simp] theorem State.setProc_reqAge (s : State) (pid : Nat) (p : Proc) : (s.setProc pid p).reqAge = s.reqAge := rfl
@[simp] theorem State.setProc_nextReq (s : State) (pid : Nat) (p : Proc) : (s.setProc pid p).nextReq = s.nextReq := rfl
@[simp] theorem State.setProc_usedPages (s : State) (pid : Nat) (p : Proc) : (s.setProc pid p).usedPages = s.usedPages := rfl
@[simp] theorem State.setProc_self (s : State) (pid : Nat) (p : Proc) : (s.setProc pid p).self = s.self := rfl
@[simp] theorem State.setProc_ports (s : State) (pid : Nat) (p : Proc) : (s.setProc pid p).ports = s.ports := rfl
@[simp] theorem State.setProc_routes (s : State) (pid : Nat) (p : Proc) : (s.setProc pid p).routes = s.routes := rfl
@[simp] theorem State.setProc_regs (s : State) (pid : Nat) (p : Proc) : (s.setProc pid p).regs = s.regs := rfl
@[simp] theorem State.setProc_regGens (s : State) (pid : Nat) (p : Proc) : (s.setProc pid p).regGens = s.regGens := rfl
@[simp] theorem State.setProc_imports (s : State) (pid : Nat) (p : Proc) : (s.setProc pid p).imports = s.imports := rfl
@[simp] theorem State.setProc_remotes (s : State) (pid : Nat) (p : Proc) : (s.setProc pid p).remotes = s.remotes := rfl
@[simp] theorem State.setProc_accepted (s : State) (pid : Nat) (p : Proc) : (s.setProc pid p).accepted = s.accepted := rfl
@[simp] theorem State.setProc_messages (s : State) (pid : Nat) (p : Proc) : (s.setProc pid p).messages = s.messages := rfl
@[simp] theorem State.setProc_spilled (s : State) (pid : Nat) (p : Proc) : (s.setProc pid p).spilled = s.spilled := rfl
@[simp] theorem State.setProc_vout (s : State) (pid : Nat) (p : Proc) : (s.setProc pid p).vout = s.vout := rfl
@[simp] theorem State.setProc_resends (s : State) (pid : Nat) (p : Proc) : (s.setProc pid p).resends = s.resends := rfl
@[simp] theorem State.setProc_staleLog (s : State) (pid : Nat) (p : Proc) : (s.setProc pid p).staleLog = s.staleLog := rfl
@[simp] theorem State.setProc_nakLog (s : State) (pid : Nat) (p : Proc) : (s.setProc pid p).nakLog = s.nakLog := rfl
@[simp] theorem State.setProc_fns (s : State) (pid : Nat) (p : Proc) : (s.setProc pid p).fns = s.fns := rfl
@[simp] theorem State.setProc_completions (s : State) (pid : Nat) (p : Proc) : (s.setProc pid p).completions = s.completions := rfl
@[simp] theorem State.setProc_cmdOrder (s : State) (pid : Nat) (p : Proc) : (s.setProc pid p).cmdOrder = s.cmdOrder := rfl
@[simp] theorem State.setProc_fuses (s : State) (pid : Nat) (p : Proc) : (s.setProc pid p).fuses = s.fuses := rfl
@[simp] theorem State.setProc_attests (s : State) (pid : Nat) (p : Proc) : (s.setProc pid p).attests = s.attests := rfl
@[simp] theorem State.setProc_snapshot (s : State) (pid : Nat) (p : Proc) : (s.setProc pid p).snapshot = s.snapshot := rfl
@[simp] theorem State.setProc_bulk (s : State) (pid : Nat) (p : Proc) : (s.setProc pid p).bulk = s.bulk := rfl
@[simp] theorem State.setProc_inbox (s : State) (pid : Nat) (p : Proc) : (s.setProc pid p).inbox = s.inbox := rfl
@[simp] theorem State.setProc_agenda (s : State) (pid : Nat) (p : Proc) : (s.setProc pid p).agenda = s.agenda := rfl
@[simp] theorem State.setProc_picks (s : State) (pid : Nat) (p : Proc) : (s.setProc pid p).picks = s.picks := rfl
@[simp] theorem State.setProc_draws (s : State) (pid : Nat) (p : Proc) : (s.setProc pid p).draws = s.draws := rfl

/-! ## `modProc` changes `procs` -/

@[simp] theorem State.modProc_powered (s : State) (pid : Nat) (f : Proc → Proc) : (s.modProc pid f).powered = s.powered := rfl
@[simp] theorem State.modProc_ready (s : State) (pid : Nat) (f : Proc → Proc) : (s.modProc pid f).ready = s.ready := rfl
@[simp] theorem State.modProc_hot (s : State) (pid : Nat) (f : Proc → Proc) : (s.modProc pid f).hot = s.hot := rfl
@[simp] theorem State.modProc_thermalHeld (s : State) (pid : Nat) (f : Proc → Proc) : (s.modProc pid f).thermalHeld = s.thermalHeld := rfl
@[simp] theorem State.modProc_cue (s : State) (pid : Nat) (f : Proc → Proc) : (s.modProc pid f).cue = s.cue := rfl
@[simp] theorem State.modProc_cueRef (s : State) (pid : Nat) (f : Proc → Proc) : (s.modProc pid f).cueRef = s.cueRef := rfl
@[simp] theorem State.modProc_frame (s : State) (pid : Nat) (f : Proc → Proc) : (s.modProc pid f).frame = s.frame := rfl
@[simp] theorem State.modProc_snapTime (s : State) (pid : Nat) (f : Proc → Proc) : (s.modProc pid f).snapTime = s.snapTime := rfl
@[simp] theorem State.modProc_cut (s : State) (pid : Nat) (f : Proc → Proc) : (s.modProc pid f).cut = s.cut := rfl
@[simp] theorem State.modProc_cur (s : State) (pid : Nat) (f : Proc → Proc) : (s.modProc pid f).cur = s.cur := rfl
@[simp] theorem State.modProc_strike (s : State) (pid : Nat) (f : Proc → Proc) : (s.modProc pid f).strike = s.strike := rfl
@[simp] theorem State.modProc_contexts (s : State) (pid : Nat) (f : Proc → Proc) : (s.modProc pid f).contexts = s.contexts := rfl
@[simp] theorem State.modProc_nets (s : State) (pid : Nat) (f : Proc → Proc) : (s.modProc pid f).nets = s.nets := rfl
@[simp] theorem State.modProc_tenants (s : State) (pid : Nat) (f : Proc → Proc) : (s.modProc pid f).tenants = s.tenants := rfl
@[simp] theorem State.modProc_chans (s : State) (pid : Nat) (f : Proc → Proc) : (s.modProc pid f).chans = s.chans := rfl
@[simp] theorem State.modProc_handleGens (s : State) (pid : Nat) (f : Proc → Proc) : (s.modProc pid f).handleGens = s.handleGens := rfl
@[simp] theorem State.modProc_queueHandles (s : State) (pid : Nat) (f : Proc → Proc) : (s.modProc pid f).queueHandles = s.queueHandles := rfl
@[simp] theorem State.modProc_tiles (s : State) (pid : Nat) (f : Proc → Proc) : (s.modProc pid f).tiles = s.tiles := rfl
@[simp] theorem State.modProc_dies (s : State) (pid : Nat) (f : Proc → Proc) : (s.modProc pid f).dies = s.dies := rfl
@[simp] theorem State.modProc_offices (s : State) (pid : Nat) (f : Proc → Proc) : (s.modProc pid f).offices = s.offices := rfl
@[simp] theorem State.modProc_mem (s : State) (pid : Nat) (f : Proc → Proc) : (s.modProc pid f).mem = s.mem := rfl
@[simp] theorem State.modProc_memPoison (s : State) (pid : Nat) (f : Proc → Proc) : (s.modProc pid f).memPoison = s.memPoison := rfl
@[simp] theorem State.modProc_memErrors (s : State) (pid : Nat) (f : Proc → Proc) : (s.modProc pid f).memErrors = s.memErrors := rfl
@[simp] theorem State.modProc_servers (s : State) (pid : Nat) (f : Proc → Proc) : (s.modProc pid f).servers = s.servers := rfl
@[simp] theorem State.modProc_flight (s : State) (pid : Nat) (f : Proc → Proc) : (s.modProc pid f).flight = s.flight := rfl
@[simp] theorem State.modProc_queued (s : State) (pid : Nat) (f : Proc → Proc) : (s.modProc pid f).queued = s.queued := rfl
@[simp] theorem State.modProc_replies (s : State) (pid : Nat) (f : Proc → Proc) : (s.modProc pid f).replies = s.replies := rfl
@[simp] theorem State.modProc_reqAge (s : State) (pid : Nat) (f : Proc → Proc) : (s.modProc pid f).reqAge = s.reqAge := rfl
@[simp] theorem State.modProc_nextReq (s : State) (pid : Nat) (f : Proc → Proc) : (s.modProc pid f).nextReq = s.nextReq := rfl
@[simp] theorem State.modProc_usedPages (s : State) (pid : Nat) (f : Proc → Proc) : (s.modProc pid f).usedPages = s.usedPages := rfl
@[simp] theorem State.modProc_self (s : State) (pid : Nat) (f : Proc → Proc) : (s.modProc pid f).self = s.self := rfl
@[simp] theorem State.modProc_ports (s : State) (pid : Nat) (f : Proc → Proc) : (s.modProc pid f).ports = s.ports := rfl
@[simp] theorem State.modProc_routes (s : State) (pid : Nat) (f : Proc → Proc) : (s.modProc pid f).routes = s.routes := rfl
@[simp] theorem State.modProc_regs (s : State) (pid : Nat) (f : Proc → Proc) : (s.modProc pid f).regs = s.regs := rfl
@[simp] theorem State.modProc_regGens (s : State) (pid : Nat) (f : Proc → Proc) : (s.modProc pid f).regGens = s.regGens := rfl
@[simp] theorem State.modProc_imports (s : State) (pid : Nat) (f : Proc → Proc) : (s.modProc pid f).imports = s.imports := rfl
@[simp] theorem State.modProc_remotes (s : State) (pid : Nat) (f : Proc → Proc) : (s.modProc pid f).remotes = s.remotes := rfl
@[simp] theorem State.modProc_accepted (s : State) (pid : Nat) (f : Proc → Proc) : (s.modProc pid f).accepted = s.accepted := rfl
@[simp] theorem State.modProc_messages (s : State) (pid : Nat) (f : Proc → Proc) : (s.modProc pid f).messages = s.messages := rfl
@[simp] theorem State.modProc_spilled (s : State) (pid : Nat) (f : Proc → Proc) : (s.modProc pid f).spilled = s.spilled := rfl
@[simp] theorem State.modProc_vout (s : State) (pid : Nat) (f : Proc → Proc) : (s.modProc pid f).vout = s.vout := rfl
@[simp] theorem State.modProc_resends (s : State) (pid : Nat) (f : Proc → Proc) : (s.modProc pid f).resends = s.resends := rfl
@[simp] theorem State.modProc_staleLog (s : State) (pid : Nat) (f : Proc → Proc) : (s.modProc pid f).staleLog = s.staleLog := rfl
@[simp] theorem State.modProc_nakLog (s : State) (pid : Nat) (f : Proc → Proc) : (s.modProc pid f).nakLog = s.nakLog := rfl
@[simp] theorem State.modProc_fns (s : State) (pid : Nat) (f : Proc → Proc) : (s.modProc pid f).fns = s.fns := rfl
@[simp] theorem State.modProc_completions (s : State) (pid : Nat) (f : Proc → Proc) : (s.modProc pid f).completions = s.completions := rfl
@[simp] theorem State.modProc_cmdOrder (s : State) (pid : Nat) (f : Proc → Proc) : (s.modProc pid f).cmdOrder = s.cmdOrder := rfl
@[simp] theorem State.modProc_fuses (s : State) (pid : Nat) (f : Proc → Proc) : (s.modProc pid f).fuses = s.fuses := rfl
@[simp] theorem State.modProc_attests (s : State) (pid : Nat) (f : Proc → Proc) : (s.modProc pid f).attests = s.attests := rfl
@[simp] theorem State.modProc_snapshot (s : State) (pid : Nat) (f : Proc → Proc) : (s.modProc pid f).snapshot = s.snapshot := rfl
@[simp] theorem State.modProc_bulk (s : State) (pid : Nat) (f : Proc → Proc) : (s.modProc pid f).bulk = s.bulk := rfl
@[simp] theorem State.modProc_inbox (s : State) (pid : Nat) (f : Proc → Proc) : (s.modProc pid f).inbox = s.inbox := rfl
@[simp] theorem State.modProc_agenda (s : State) (pid : Nat) (f : Proc → Proc) : (s.modProc pid f).agenda = s.agenda := rfl
@[simp] theorem State.modProc_picks (s : State) (pid : Nat) (f : Proc → Proc) : (s.modProc pid f).picks = s.picks := rfl
@[simp] theorem State.modProc_draws (s : State) (pid : Nat) (f : Proc → Proc) : (s.modProc pid f).draws = s.draws := rfl

/-! ## `setCur` changes `procs` -/

@[simp] theorem State.setCur_powered (s : State) (p : Proc) : (s.setCur p).powered = s.powered := rfl
@[simp] theorem State.setCur_ready (s : State) (p : Proc) : (s.setCur p).ready = s.ready := rfl
@[simp] theorem State.setCur_hot (s : State) (p : Proc) : (s.setCur p).hot = s.hot := rfl
@[simp] theorem State.setCur_thermalHeld (s : State) (p : Proc) : (s.setCur p).thermalHeld = s.thermalHeld := rfl
@[simp] theorem State.setCur_cue (s : State) (p : Proc) : (s.setCur p).cue = s.cue := rfl
@[simp] theorem State.setCur_cueRef (s : State) (p : Proc) : (s.setCur p).cueRef = s.cueRef := rfl
@[simp] theorem State.setCur_frame (s : State) (p : Proc) : (s.setCur p).frame = s.frame := rfl
@[simp] theorem State.setCur_snapTime (s : State) (p : Proc) : (s.setCur p).snapTime = s.snapTime := rfl
@[simp] theorem State.setCur_cut (s : State) (p : Proc) : (s.setCur p).cut = s.cut := rfl
@[simp] theorem State.setCur_cur (s : State) (p : Proc) : (s.setCur p).cur = s.cur := rfl
@[simp] theorem State.setCur_strike (s : State) (p : Proc) : (s.setCur p).strike = s.strike := rfl
@[simp] theorem State.setCur_contexts (s : State) (p : Proc) : (s.setCur p).contexts = s.contexts := rfl
@[simp] theorem State.setCur_nets (s : State) (p : Proc) : (s.setCur p).nets = s.nets := rfl
@[simp] theorem State.setCur_tenants (s : State) (p : Proc) : (s.setCur p).tenants = s.tenants := rfl
@[simp] theorem State.setCur_chans (s : State) (p : Proc) : (s.setCur p).chans = s.chans := rfl
@[simp] theorem State.setCur_handleGens (s : State) (p : Proc) : (s.setCur p).handleGens = s.handleGens := rfl
@[simp] theorem State.setCur_queueHandles (s : State) (p : Proc) : (s.setCur p).queueHandles = s.queueHandles := rfl
@[simp] theorem State.setCur_tiles (s : State) (p : Proc) : (s.setCur p).tiles = s.tiles := rfl
@[simp] theorem State.setCur_dies (s : State) (p : Proc) : (s.setCur p).dies = s.dies := rfl
@[simp] theorem State.setCur_offices (s : State) (p : Proc) : (s.setCur p).offices = s.offices := rfl
@[simp] theorem State.setCur_mem (s : State) (p : Proc) : (s.setCur p).mem = s.mem := rfl
@[simp] theorem State.setCur_memPoison (s : State) (p : Proc) : (s.setCur p).memPoison = s.memPoison := rfl
@[simp] theorem State.setCur_memErrors (s : State) (p : Proc) : (s.setCur p).memErrors = s.memErrors := rfl
@[simp] theorem State.setCur_servers (s : State) (p : Proc) : (s.setCur p).servers = s.servers := rfl
@[simp] theorem State.setCur_flight (s : State) (p : Proc) : (s.setCur p).flight = s.flight := rfl
@[simp] theorem State.setCur_queued (s : State) (p : Proc) : (s.setCur p).queued = s.queued := rfl
@[simp] theorem State.setCur_replies (s : State) (p : Proc) : (s.setCur p).replies = s.replies := rfl
@[simp] theorem State.setCur_reqAge (s : State) (p : Proc) : (s.setCur p).reqAge = s.reqAge := rfl
@[simp] theorem State.setCur_nextReq (s : State) (p : Proc) : (s.setCur p).nextReq = s.nextReq := rfl
@[simp] theorem State.setCur_usedPages (s : State) (p : Proc) : (s.setCur p).usedPages = s.usedPages := rfl
@[simp] theorem State.setCur_self (s : State) (p : Proc) : (s.setCur p).self = s.self := rfl
@[simp] theorem State.setCur_ports (s : State) (p : Proc) : (s.setCur p).ports = s.ports := rfl
@[simp] theorem State.setCur_routes (s : State) (p : Proc) : (s.setCur p).routes = s.routes := rfl
@[simp] theorem State.setCur_regs (s : State) (p : Proc) : (s.setCur p).regs = s.regs := rfl
@[simp] theorem State.setCur_regGens (s : State) (p : Proc) : (s.setCur p).regGens = s.regGens := rfl
@[simp] theorem State.setCur_imports (s : State) (p : Proc) : (s.setCur p).imports = s.imports := rfl
@[simp] theorem State.setCur_remotes (s : State) (p : Proc) : (s.setCur p).remotes = s.remotes := rfl
@[simp] theorem State.setCur_accepted (s : State) (p : Proc) : (s.setCur p).accepted = s.accepted := rfl
@[simp] theorem State.setCur_messages (s : State) (p : Proc) : (s.setCur p).messages = s.messages := rfl
@[simp] theorem State.setCur_spilled (s : State) (p : Proc) : (s.setCur p).spilled = s.spilled := rfl
@[simp] theorem State.setCur_vout (s : State) (p : Proc) : (s.setCur p).vout = s.vout := rfl
@[simp] theorem State.setCur_resends (s : State) (p : Proc) : (s.setCur p).resends = s.resends := rfl
@[simp] theorem State.setCur_staleLog (s : State) (p : Proc) : (s.setCur p).staleLog = s.staleLog := rfl
@[simp] theorem State.setCur_nakLog (s : State) (p : Proc) : (s.setCur p).nakLog = s.nakLog := rfl
@[simp] theorem State.setCur_fns (s : State) (p : Proc) : (s.setCur p).fns = s.fns := rfl
@[simp] theorem State.setCur_completions (s : State) (p : Proc) : (s.setCur p).completions = s.completions := rfl
@[simp] theorem State.setCur_cmdOrder (s : State) (p : Proc) : (s.setCur p).cmdOrder = s.cmdOrder := rfl
@[simp] theorem State.setCur_fuses (s : State) (p : Proc) : (s.setCur p).fuses = s.fuses := rfl
@[simp] theorem State.setCur_attests (s : State) (p : Proc) : (s.setCur p).attests = s.attests := rfl
@[simp] theorem State.setCur_snapshot (s : State) (p : Proc) : (s.setCur p).snapshot = s.snapshot := rfl
@[simp] theorem State.setCur_bulk (s : State) (p : Proc) : (s.setCur p).bulk = s.bulk := rfl
@[simp] theorem State.setCur_inbox (s : State) (p : Proc) : (s.setCur p).inbox = s.inbox := rfl
@[simp] theorem State.setCur_agenda (s : State) (p : Proc) : (s.setCur p).agenda = s.agenda := rfl
@[simp] theorem State.setCur_picks (s : State) (p : Proc) : (s.setCur p).picks = s.picks := rfl
@[simp] theorem State.setCur_draws (s : State) (p : Proc) : (s.setCur p).draws = s.draws := rfl

/-! ## `setTile` changes `tiles` -/

@[simp] theorem State.setTile_powered (s : State) (k : Nat) (x : Tile) : (s.setTile k x).powered = s.powered := rfl
@[simp] theorem State.setTile_ready (s : State) (k : Nat) (x : Tile) : (s.setTile k x).ready = s.ready := rfl
@[simp] theorem State.setTile_hot (s : State) (k : Nat) (x : Tile) : (s.setTile k x).hot = s.hot := rfl
@[simp] theorem State.setTile_thermalHeld (s : State) (k : Nat) (x : Tile) : (s.setTile k x).thermalHeld = s.thermalHeld := rfl
@[simp] theorem State.setTile_cue (s : State) (k : Nat) (x : Tile) : (s.setTile k x).cue = s.cue := rfl
@[simp] theorem State.setTile_cueRef (s : State) (k : Nat) (x : Tile) : (s.setTile k x).cueRef = s.cueRef := rfl
@[simp] theorem State.setTile_frame (s : State) (k : Nat) (x : Tile) : (s.setTile k x).frame = s.frame := rfl
@[simp] theorem State.setTile_snapTime (s : State) (k : Nat) (x : Tile) : (s.setTile k x).snapTime = s.snapTime := rfl
@[simp] theorem State.setTile_cut (s : State) (k : Nat) (x : Tile) : (s.setTile k x).cut = s.cut := rfl
@[simp] theorem State.setTile_cur (s : State) (k : Nat) (x : Tile) : (s.setTile k x).cur = s.cur := rfl
@[simp] theorem State.setTile_procs (s : State) (k : Nat) (x : Tile) : (s.setTile k x).procs = s.procs := rfl
@[simp] theorem State.setTile_strike (s : State) (k : Nat) (x : Tile) : (s.setTile k x).strike = s.strike := rfl
@[simp] theorem State.setTile_contexts (s : State) (k : Nat) (x : Tile) : (s.setTile k x).contexts = s.contexts := rfl
@[simp] theorem State.setTile_nets (s : State) (k : Nat) (x : Tile) : (s.setTile k x).nets = s.nets := rfl
@[simp] theorem State.setTile_tenants (s : State) (k : Nat) (x : Tile) : (s.setTile k x).tenants = s.tenants := rfl
@[simp] theorem State.setTile_chans (s : State) (k : Nat) (x : Tile) : (s.setTile k x).chans = s.chans := rfl
@[simp] theorem State.setTile_handleGens (s : State) (k : Nat) (x : Tile) : (s.setTile k x).handleGens = s.handleGens := rfl
@[simp] theorem State.setTile_queueHandles (s : State) (k : Nat) (x : Tile) : (s.setTile k x).queueHandles = s.queueHandles := rfl
@[simp] theorem State.setTile_dies (s : State) (k : Nat) (x : Tile) : (s.setTile k x).dies = s.dies := rfl
@[simp] theorem State.setTile_offices (s : State) (k : Nat) (x : Tile) : (s.setTile k x).offices = s.offices := rfl
@[simp] theorem State.setTile_mem (s : State) (k : Nat) (x : Tile) : (s.setTile k x).mem = s.mem := rfl
@[simp] theorem State.setTile_memPoison (s : State) (k : Nat) (x : Tile) : (s.setTile k x).memPoison = s.memPoison := rfl
@[simp] theorem State.setTile_memErrors (s : State) (k : Nat) (x : Tile) : (s.setTile k x).memErrors = s.memErrors := rfl
@[simp] theorem State.setTile_servers (s : State) (k : Nat) (x : Tile) : (s.setTile k x).servers = s.servers := rfl
@[simp] theorem State.setTile_flight (s : State) (k : Nat) (x : Tile) : (s.setTile k x).flight = s.flight := rfl
@[simp] theorem State.setTile_queued (s : State) (k : Nat) (x : Tile) : (s.setTile k x).queued = s.queued := rfl
@[simp] theorem State.setTile_replies (s : State) (k : Nat) (x : Tile) : (s.setTile k x).replies = s.replies := rfl
@[simp] theorem State.setTile_reqAge (s : State) (k : Nat) (x : Tile) : (s.setTile k x).reqAge = s.reqAge := rfl
@[simp] theorem State.setTile_nextReq (s : State) (k : Nat) (x : Tile) : (s.setTile k x).nextReq = s.nextReq := rfl
@[simp] theorem State.setTile_usedPages (s : State) (k : Nat) (x : Tile) : (s.setTile k x).usedPages = s.usedPages := rfl
@[simp] theorem State.setTile_self (s : State) (k : Nat) (x : Tile) : (s.setTile k x).self = s.self := rfl
@[simp] theorem State.setTile_ports (s : State) (k : Nat) (x : Tile) : (s.setTile k x).ports = s.ports := rfl
@[simp] theorem State.setTile_routes (s : State) (k : Nat) (x : Tile) : (s.setTile k x).routes = s.routes := rfl
@[simp] theorem State.setTile_regs (s : State) (k : Nat) (x : Tile) : (s.setTile k x).regs = s.regs := rfl
@[simp] theorem State.setTile_regGens (s : State) (k : Nat) (x : Tile) : (s.setTile k x).regGens = s.regGens := rfl
@[simp] theorem State.setTile_imports (s : State) (k : Nat) (x : Tile) : (s.setTile k x).imports = s.imports := rfl
@[simp] theorem State.setTile_remotes (s : State) (k : Nat) (x : Tile) : (s.setTile k x).remotes = s.remotes := rfl
@[simp] theorem State.setTile_accepted (s : State) (k : Nat) (x : Tile) : (s.setTile k x).accepted = s.accepted := rfl
@[simp] theorem State.setTile_messages (s : State) (k : Nat) (x : Tile) : (s.setTile k x).messages = s.messages := rfl
@[simp] theorem State.setTile_spilled (s : State) (k : Nat) (x : Tile) : (s.setTile k x).spilled = s.spilled := rfl
@[simp] theorem State.setTile_vout (s : State) (k : Nat) (x : Tile) : (s.setTile k x).vout = s.vout := rfl
@[simp] theorem State.setTile_resends (s : State) (k : Nat) (x : Tile) : (s.setTile k x).resends = s.resends := rfl
@[simp] theorem State.setTile_staleLog (s : State) (k : Nat) (x : Tile) : (s.setTile k x).staleLog = s.staleLog := rfl
@[simp] theorem State.setTile_nakLog (s : State) (k : Nat) (x : Tile) : (s.setTile k x).nakLog = s.nakLog := rfl
@[simp] theorem State.setTile_fns (s : State) (k : Nat) (x : Tile) : (s.setTile k x).fns = s.fns := rfl
@[simp] theorem State.setTile_completions (s : State) (k : Nat) (x : Tile) : (s.setTile k x).completions = s.completions := rfl
@[simp] theorem State.setTile_cmdOrder (s : State) (k : Nat) (x : Tile) : (s.setTile k x).cmdOrder = s.cmdOrder := rfl
@[simp] theorem State.setTile_fuses (s : State) (k : Nat) (x : Tile) : (s.setTile k x).fuses = s.fuses := rfl
@[simp] theorem State.setTile_attests (s : State) (k : Nat) (x : Tile) : (s.setTile k x).attests = s.attests := rfl
@[simp] theorem State.setTile_snapshot (s : State) (k : Nat) (x : Tile) : (s.setTile k x).snapshot = s.snapshot := rfl
@[simp] theorem State.setTile_bulk (s : State) (k : Nat) (x : Tile) : (s.setTile k x).bulk = s.bulk := rfl
@[simp] theorem State.setTile_inbox (s : State) (k : Nat) (x : Tile) : (s.setTile k x).inbox = s.inbox := rfl
@[simp] theorem State.setTile_agenda (s : State) (k : Nat) (x : Tile) : (s.setTile k x).agenda = s.agenda := rfl
@[simp] theorem State.setTile_picks (s : State) (k : Nat) (x : Tile) : (s.setTile k x).picks = s.picks := rfl
@[simp] theorem State.setTile_draws (s : State) (k : Nat) (x : Tile) : (s.setTile k x).draws = s.draws := rfl

/-! ## `modTile` changes `tiles` -/

@[simp] theorem State.modTile_powered (s : State) (k : Nat) (f : Tile → Tile) : (s.modTile k f).powered = s.powered := rfl
@[simp] theorem State.modTile_ready (s : State) (k : Nat) (f : Tile → Tile) : (s.modTile k f).ready = s.ready := rfl
@[simp] theorem State.modTile_hot (s : State) (k : Nat) (f : Tile → Tile) : (s.modTile k f).hot = s.hot := rfl
@[simp] theorem State.modTile_thermalHeld (s : State) (k : Nat) (f : Tile → Tile) : (s.modTile k f).thermalHeld = s.thermalHeld := rfl
@[simp] theorem State.modTile_cue (s : State) (k : Nat) (f : Tile → Tile) : (s.modTile k f).cue = s.cue := rfl
@[simp] theorem State.modTile_cueRef (s : State) (k : Nat) (f : Tile → Tile) : (s.modTile k f).cueRef = s.cueRef := rfl
@[simp] theorem State.modTile_frame (s : State) (k : Nat) (f : Tile → Tile) : (s.modTile k f).frame = s.frame := rfl
@[simp] theorem State.modTile_snapTime (s : State) (k : Nat) (f : Tile → Tile) : (s.modTile k f).snapTime = s.snapTime := rfl
@[simp] theorem State.modTile_cut (s : State) (k : Nat) (f : Tile → Tile) : (s.modTile k f).cut = s.cut := rfl
@[simp] theorem State.modTile_cur (s : State) (k : Nat) (f : Tile → Tile) : (s.modTile k f).cur = s.cur := rfl
@[simp] theorem State.modTile_procs (s : State) (k : Nat) (f : Tile → Tile) : (s.modTile k f).procs = s.procs := rfl
@[simp] theorem State.modTile_strike (s : State) (k : Nat) (f : Tile → Tile) : (s.modTile k f).strike = s.strike := rfl
@[simp] theorem State.modTile_contexts (s : State) (k : Nat) (f : Tile → Tile) : (s.modTile k f).contexts = s.contexts := rfl
@[simp] theorem State.modTile_nets (s : State) (k : Nat) (f : Tile → Tile) : (s.modTile k f).nets = s.nets := rfl
@[simp] theorem State.modTile_tenants (s : State) (k : Nat) (f : Tile → Tile) : (s.modTile k f).tenants = s.tenants := rfl
@[simp] theorem State.modTile_chans (s : State) (k : Nat) (f : Tile → Tile) : (s.modTile k f).chans = s.chans := rfl
@[simp] theorem State.modTile_handleGens (s : State) (k : Nat) (f : Tile → Tile) : (s.modTile k f).handleGens = s.handleGens := rfl
@[simp] theorem State.modTile_queueHandles (s : State) (k : Nat) (f : Tile → Tile) : (s.modTile k f).queueHandles = s.queueHandles := rfl
@[simp] theorem State.modTile_dies (s : State) (k : Nat) (f : Tile → Tile) : (s.modTile k f).dies = s.dies := rfl
@[simp] theorem State.modTile_offices (s : State) (k : Nat) (f : Tile → Tile) : (s.modTile k f).offices = s.offices := rfl
@[simp] theorem State.modTile_mem (s : State) (k : Nat) (f : Tile → Tile) : (s.modTile k f).mem = s.mem := rfl
@[simp] theorem State.modTile_memPoison (s : State) (k : Nat) (f : Tile → Tile) : (s.modTile k f).memPoison = s.memPoison := rfl
@[simp] theorem State.modTile_memErrors (s : State) (k : Nat) (f : Tile → Tile) : (s.modTile k f).memErrors = s.memErrors := rfl
@[simp] theorem State.modTile_servers (s : State) (k : Nat) (f : Tile → Tile) : (s.modTile k f).servers = s.servers := rfl
@[simp] theorem State.modTile_flight (s : State) (k : Nat) (f : Tile → Tile) : (s.modTile k f).flight = s.flight := rfl
@[simp] theorem State.modTile_queued (s : State) (k : Nat) (f : Tile → Tile) : (s.modTile k f).queued = s.queued := rfl
@[simp] theorem State.modTile_replies (s : State) (k : Nat) (f : Tile → Tile) : (s.modTile k f).replies = s.replies := rfl
@[simp] theorem State.modTile_reqAge (s : State) (k : Nat) (f : Tile → Tile) : (s.modTile k f).reqAge = s.reqAge := rfl
@[simp] theorem State.modTile_nextReq (s : State) (k : Nat) (f : Tile → Tile) : (s.modTile k f).nextReq = s.nextReq := rfl
@[simp] theorem State.modTile_usedPages (s : State) (k : Nat) (f : Tile → Tile) : (s.modTile k f).usedPages = s.usedPages := rfl
@[simp] theorem State.modTile_self (s : State) (k : Nat) (f : Tile → Tile) : (s.modTile k f).self = s.self := rfl
@[simp] theorem State.modTile_ports (s : State) (k : Nat) (f : Tile → Tile) : (s.modTile k f).ports = s.ports := rfl
@[simp] theorem State.modTile_routes (s : State) (k : Nat) (f : Tile → Tile) : (s.modTile k f).routes = s.routes := rfl
@[simp] theorem State.modTile_regs (s : State) (k : Nat) (f : Tile → Tile) : (s.modTile k f).regs = s.regs := rfl
@[simp] theorem State.modTile_regGens (s : State) (k : Nat) (f : Tile → Tile) : (s.modTile k f).regGens = s.regGens := rfl
@[simp] theorem State.modTile_imports (s : State) (k : Nat) (f : Tile → Tile) : (s.modTile k f).imports = s.imports := rfl
@[simp] theorem State.modTile_remotes (s : State) (k : Nat) (f : Tile → Tile) : (s.modTile k f).remotes = s.remotes := rfl
@[simp] theorem State.modTile_accepted (s : State) (k : Nat) (f : Tile → Tile) : (s.modTile k f).accepted = s.accepted := rfl
@[simp] theorem State.modTile_messages (s : State) (k : Nat) (f : Tile → Tile) : (s.modTile k f).messages = s.messages := rfl
@[simp] theorem State.modTile_spilled (s : State) (k : Nat) (f : Tile → Tile) : (s.modTile k f).spilled = s.spilled := rfl
@[simp] theorem State.modTile_vout (s : State) (k : Nat) (f : Tile → Tile) : (s.modTile k f).vout = s.vout := rfl
@[simp] theorem State.modTile_resends (s : State) (k : Nat) (f : Tile → Tile) : (s.modTile k f).resends = s.resends := rfl
@[simp] theorem State.modTile_staleLog (s : State) (k : Nat) (f : Tile → Tile) : (s.modTile k f).staleLog = s.staleLog := rfl
@[simp] theorem State.modTile_nakLog (s : State) (k : Nat) (f : Tile → Tile) : (s.modTile k f).nakLog = s.nakLog := rfl
@[simp] theorem State.modTile_fns (s : State) (k : Nat) (f : Tile → Tile) : (s.modTile k f).fns = s.fns := rfl
@[simp] theorem State.modTile_completions (s : State) (k : Nat) (f : Tile → Tile) : (s.modTile k f).completions = s.completions := rfl
@[simp] theorem State.modTile_cmdOrder (s : State) (k : Nat) (f : Tile → Tile) : (s.modTile k f).cmdOrder = s.cmdOrder := rfl
@[simp] theorem State.modTile_fuses (s : State) (k : Nat) (f : Tile → Tile) : (s.modTile k f).fuses = s.fuses := rfl
@[simp] theorem State.modTile_attests (s : State) (k : Nat) (f : Tile → Tile) : (s.modTile k f).attests = s.attests := rfl
@[simp] theorem State.modTile_snapshot (s : State) (k : Nat) (f : Tile → Tile) : (s.modTile k f).snapshot = s.snapshot := rfl
@[simp] theorem State.modTile_bulk (s : State) (k : Nat) (f : Tile → Tile) : (s.modTile k f).bulk = s.bulk := rfl
@[simp] theorem State.modTile_inbox (s : State) (k : Nat) (f : Tile → Tile) : (s.modTile k f).inbox = s.inbox := rfl
@[simp] theorem State.modTile_agenda (s : State) (k : Nat) (f : Tile → Tile) : (s.modTile k f).agenda = s.agenda := rfl
@[simp] theorem State.modTile_picks (s : State) (k : Nat) (f : Tile → Tile) : (s.modTile k f).picks = s.picks := rfl
@[simp] theorem State.modTile_draws (s : State) (k : Nat) (f : Tile → Tile) : (s.modTile k f).draws = s.draws := rfl

/-! ## `modServer` changes `servers` -/

@[simp] theorem State.modServer_powered (s : State) (k : Nat) (f : Server → Server) : (s.modServer k f).powered = s.powered := rfl
@[simp] theorem State.modServer_ready (s : State) (k : Nat) (f : Server → Server) : (s.modServer k f).ready = s.ready := rfl
@[simp] theorem State.modServer_hot (s : State) (k : Nat) (f : Server → Server) : (s.modServer k f).hot = s.hot := rfl
@[simp] theorem State.modServer_thermalHeld (s : State) (k : Nat) (f : Server → Server) : (s.modServer k f).thermalHeld = s.thermalHeld := rfl
@[simp] theorem State.modServer_cue (s : State) (k : Nat) (f : Server → Server) : (s.modServer k f).cue = s.cue := rfl
@[simp] theorem State.modServer_cueRef (s : State) (k : Nat) (f : Server → Server) : (s.modServer k f).cueRef = s.cueRef := rfl
@[simp] theorem State.modServer_frame (s : State) (k : Nat) (f : Server → Server) : (s.modServer k f).frame = s.frame := rfl
@[simp] theorem State.modServer_snapTime (s : State) (k : Nat) (f : Server → Server) : (s.modServer k f).snapTime = s.snapTime := rfl
@[simp] theorem State.modServer_cut (s : State) (k : Nat) (f : Server → Server) : (s.modServer k f).cut = s.cut := rfl
@[simp] theorem State.modServer_cur (s : State) (k : Nat) (f : Server → Server) : (s.modServer k f).cur = s.cur := rfl
@[simp] theorem State.modServer_procs (s : State) (k : Nat) (f : Server → Server) : (s.modServer k f).procs = s.procs := rfl
@[simp] theorem State.modServer_strike (s : State) (k : Nat) (f : Server → Server) : (s.modServer k f).strike = s.strike := rfl
@[simp] theorem State.modServer_contexts (s : State) (k : Nat) (f : Server → Server) : (s.modServer k f).contexts = s.contexts := rfl
@[simp] theorem State.modServer_nets (s : State) (k : Nat) (f : Server → Server) : (s.modServer k f).nets = s.nets := rfl
@[simp] theorem State.modServer_tenants (s : State) (k : Nat) (f : Server → Server) : (s.modServer k f).tenants = s.tenants := rfl
@[simp] theorem State.modServer_chans (s : State) (k : Nat) (f : Server → Server) : (s.modServer k f).chans = s.chans := rfl
@[simp] theorem State.modServer_handleGens (s : State) (k : Nat) (f : Server → Server) : (s.modServer k f).handleGens = s.handleGens := rfl
@[simp] theorem State.modServer_queueHandles (s : State) (k : Nat) (f : Server → Server) : (s.modServer k f).queueHandles = s.queueHandles := rfl
@[simp] theorem State.modServer_tiles (s : State) (k : Nat) (f : Server → Server) : (s.modServer k f).tiles = s.tiles := rfl
@[simp] theorem State.modServer_dies (s : State) (k : Nat) (f : Server → Server) : (s.modServer k f).dies = s.dies := rfl
@[simp] theorem State.modServer_offices (s : State) (k : Nat) (f : Server → Server) : (s.modServer k f).offices = s.offices := rfl
@[simp] theorem State.modServer_mem (s : State) (k : Nat) (f : Server → Server) : (s.modServer k f).mem = s.mem := rfl
@[simp] theorem State.modServer_memPoison (s : State) (k : Nat) (f : Server → Server) : (s.modServer k f).memPoison = s.memPoison := rfl
@[simp] theorem State.modServer_memErrors (s : State) (k : Nat) (f : Server → Server) : (s.modServer k f).memErrors = s.memErrors := rfl
@[simp] theorem State.modServer_flight (s : State) (k : Nat) (f : Server → Server) : (s.modServer k f).flight = s.flight := rfl
@[simp] theorem State.modServer_queued (s : State) (k : Nat) (f : Server → Server) : (s.modServer k f).queued = s.queued := rfl
@[simp] theorem State.modServer_replies (s : State) (k : Nat) (f : Server → Server) : (s.modServer k f).replies = s.replies := rfl
@[simp] theorem State.modServer_reqAge (s : State) (k : Nat) (f : Server → Server) : (s.modServer k f).reqAge = s.reqAge := rfl
@[simp] theorem State.modServer_nextReq (s : State) (k : Nat) (f : Server → Server) : (s.modServer k f).nextReq = s.nextReq := rfl
@[simp] theorem State.modServer_usedPages (s : State) (k : Nat) (f : Server → Server) : (s.modServer k f).usedPages = s.usedPages := rfl
@[simp] theorem State.modServer_self (s : State) (k : Nat) (f : Server → Server) : (s.modServer k f).self = s.self := rfl
@[simp] theorem State.modServer_ports (s : State) (k : Nat) (f : Server → Server) : (s.modServer k f).ports = s.ports := rfl
@[simp] theorem State.modServer_routes (s : State) (k : Nat) (f : Server → Server) : (s.modServer k f).routes = s.routes := rfl
@[simp] theorem State.modServer_regs (s : State) (k : Nat) (f : Server → Server) : (s.modServer k f).regs = s.regs := rfl
@[simp] theorem State.modServer_regGens (s : State) (k : Nat) (f : Server → Server) : (s.modServer k f).regGens = s.regGens := rfl
@[simp] theorem State.modServer_imports (s : State) (k : Nat) (f : Server → Server) : (s.modServer k f).imports = s.imports := rfl
@[simp] theorem State.modServer_remotes (s : State) (k : Nat) (f : Server → Server) : (s.modServer k f).remotes = s.remotes := rfl
@[simp] theorem State.modServer_accepted (s : State) (k : Nat) (f : Server → Server) : (s.modServer k f).accepted = s.accepted := rfl
@[simp] theorem State.modServer_messages (s : State) (k : Nat) (f : Server → Server) : (s.modServer k f).messages = s.messages := rfl
@[simp] theorem State.modServer_spilled (s : State) (k : Nat) (f : Server → Server) : (s.modServer k f).spilled = s.spilled := rfl
@[simp] theorem State.modServer_vout (s : State) (k : Nat) (f : Server → Server) : (s.modServer k f).vout = s.vout := rfl
@[simp] theorem State.modServer_resends (s : State) (k : Nat) (f : Server → Server) : (s.modServer k f).resends = s.resends := rfl
@[simp] theorem State.modServer_staleLog (s : State) (k : Nat) (f : Server → Server) : (s.modServer k f).staleLog = s.staleLog := rfl
@[simp] theorem State.modServer_nakLog (s : State) (k : Nat) (f : Server → Server) : (s.modServer k f).nakLog = s.nakLog := rfl
@[simp] theorem State.modServer_fns (s : State) (k : Nat) (f : Server → Server) : (s.modServer k f).fns = s.fns := rfl
@[simp] theorem State.modServer_completions (s : State) (k : Nat) (f : Server → Server) : (s.modServer k f).completions = s.completions := rfl
@[simp] theorem State.modServer_cmdOrder (s : State) (k : Nat) (f : Server → Server) : (s.modServer k f).cmdOrder = s.cmdOrder := rfl
@[simp] theorem State.modServer_fuses (s : State) (k : Nat) (f : Server → Server) : (s.modServer k f).fuses = s.fuses := rfl
@[simp] theorem State.modServer_attests (s : State) (k : Nat) (f : Server → Server) : (s.modServer k f).attests = s.attests := rfl
@[simp] theorem State.modServer_snapshot (s : State) (k : Nat) (f : Server → Server) : (s.modServer k f).snapshot = s.snapshot := rfl
@[simp] theorem State.modServer_bulk (s : State) (k : Nat) (f : Server → Server) : (s.modServer k f).bulk = s.bulk := rfl
@[simp] theorem State.modServer_inbox (s : State) (k : Nat) (f : Server → Server) : (s.modServer k f).inbox = s.inbox := rfl
@[simp] theorem State.modServer_agenda (s : State) (k : Nat) (f : Server → Server) : (s.modServer k f).agenda = s.agenda := rfl
@[simp] theorem State.modServer_picks (s : State) (k : Nat) (f : Server → Server) : (s.modServer k f).picks = s.picks := rfl
@[simp] theorem State.modServer_draws (s : State) (k : Nat) (f : Server → Server) : (s.modServer k f).draws = s.draws := rfl

/-! ## `modChan` changes `chans` -/

@[simp] theorem State.modChan_powered (s : State) (k : Nat) (f : Chan → Chan) : (s.modChan k f).powered = s.powered := rfl
@[simp] theorem State.modChan_ready (s : State) (k : Nat) (f : Chan → Chan) : (s.modChan k f).ready = s.ready := rfl
@[simp] theorem State.modChan_hot (s : State) (k : Nat) (f : Chan → Chan) : (s.modChan k f).hot = s.hot := rfl
@[simp] theorem State.modChan_thermalHeld (s : State) (k : Nat) (f : Chan → Chan) : (s.modChan k f).thermalHeld = s.thermalHeld := rfl
@[simp] theorem State.modChan_cue (s : State) (k : Nat) (f : Chan → Chan) : (s.modChan k f).cue = s.cue := rfl
@[simp] theorem State.modChan_cueRef (s : State) (k : Nat) (f : Chan → Chan) : (s.modChan k f).cueRef = s.cueRef := rfl
@[simp] theorem State.modChan_frame (s : State) (k : Nat) (f : Chan → Chan) : (s.modChan k f).frame = s.frame := rfl
@[simp] theorem State.modChan_snapTime (s : State) (k : Nat) (f : Chan → Chan) : (s.modChan k f).snapTime = s.snapTime := rfl
@[simp] theorem State.modChan_cut (s : State) (k : Nat) (f : Chan → Chan) : (s.modChan k f).cut = s.cut := rfl
@[simp] theorem State.modChan_cur (s : State) (k : Nat) (f : Chan → Chan) : (s.modChan k f).cur = s.cur := rfl
@[simp] theorem State.modChan_procs (s : State) (k : Nat) (f : Chan → Chan) : (s.modChan k f).procs = s.procs := rfl
@[simp] theorem State.modChan_strike (s : State) (k : Nat) (f : Chan → Chan) : (s.modChan k f).strike = s.strike := rfl
@[simp] theorem State.modChan_contexts (s : State) (k : Nat) (f : Chan → Chan) : (s.modChan k f).contexts = s.contexts := rfl
@[simp] theorem State.modChan_nets (s : State) (k : Nat) (f : Chan → Chan) : (s.modChan k f).nets = s.nets := rfl
@[simp] theorem State.modChan_tenants (s : State) (k : Nat) (f : Chan → Chan) : (s.modChan k f).tenants = s.tenants := rfl
@[simp] theorem State.modChan_handleGens (s : State) (k : Nat) (f : Chan → Chan) : (s.modChan k f).handleGens = s.handleGens := rfl
@[simp] theorem State.modChan_queueHandles (s : State) (k : Nat) (f : Chan → Chan) : (s.modChan k f).queueHandles = s.queueHandles := rfl
@[simp] theorem State.modChan_tiles (s : State) (k : Nat) (f : Chan → Chan) : (s.modChan k f).tiles = s.tiles := rfl
@[simp] theorem State.modChan_dies (s : State) (k : Nat) (f : Chan → Chan) : (s.modChan k f).dies = s.dies := rfl
@[simp] theorem State.modChan_offices (s : State) (k : Nat) (f : Chan → Chan) : (s.modChan k f).offices = s.offices := rfl
@[simp] theorem State.modChan_mem (s : State) (k : Nat) (f : Chan → Chan) : (s.modChan k f).mem = s.mem := rfl
@[simp] theorem State.modChan_memPoison (s : State) (k : Nat) (f : Chan → Chan) : (s.modChan k f).memPoison = s.memPoison := rfl
@[simp] theorem State.modChan_memErrors (s : State) (k : Nat) (f : Chan → Chan) : (s.modChan k f).memErrors = s.memErrors := rfl
@[simp] theorem State.modChan_servers (s : State) (k : Nat) (f : Chan → Chan) : (s.modChan k f).servers = s.servers := rfl
@[simp] theorem State.modChan_flight (s : State) (k : Nat) (f : Chan → Chan) : (s.modChan k f).flight = s.flight := rfl
@[simp] theorem State.modChan_queued (s : State) (k : Nat) (f : Chan → Chan) : (s.modChan k f).queued = s.queued := rfl
@[simp] theorem State.modChan_replies (s : State) (k : Nat) (f : Chan → Chan) : (s.modChan k f).replies = s.replies := rfl
@[simp] theorem State.modChan_reqAge (s : State) (k : Nat) (f : Chan → Chan) : (s.modChan k f).reqAge = s.reqAge := rfl
@[simp] theorem State.modChan_nextReq (s : State) (k : Nat) (f : Chan → Chan) : (s.modChan k f).nextReq = s.nextReq := rfl
@[simp] theorem State.modChan_usedPages (s : State) (k : Nat) (f : Chan → Chan) : (s.modChan k f).usedPages = s.usedPages := rfl
@[simp] theorem State.modChan_self (s : State) (k : Nat) (f : Chan → Chan) : (s.modChan k f).self = s.self := rfl
@[simp] theorem State.modChan_ports (s : State) (k : Nat) (f : Chan → Chan) : (s.modChan k f).ports = s.ports := rfl
@[simp] theorem State.modChan_routes (s : State) (k : Nat) (f : Chan → Chan) : (s.modChan k f).routes = s.routes := rfl
@[simp] theorem State.modChan_regs (s : State) (k : Nat) (f : Chan → Chan) : (s.modChan k f).regs = s.regs := rfl
@[simp] theorem State.modChan_regGens (s : State) (k : Nat) (f : Chan → Chan) : (s.modChan k f).regGens = s.regGens := rfl
@[simp] theorem State.modChan_imports (s : State) (k : Nat) (f : Chan → Chan) : (s.modChan k f).imports = s.imports := rfl
@[simp] theorem State.modChan_remotes (s : State) (k : Nat) (f : Chan → Chan) : (s.modChan k f).remotes = s.remotes := rfl
@[simp] theorem State.modChan_accepted (s : State) (k : Nat) (f : Chan → Chan) : (s.modChan k f).accepted = s.accepted := rfl
@[simp] theorem State.modChan_messages (s : State) (k : Nat) (f : Chan → Chan) : (s.modChan k f).messages = s.messages := rfl
@[simp] theorem State.modChan_spilled (s : State) (k : Nat) (f : Chan → Chan) : (s.modChan k f).spilled = s.spilled := rfl
@[simp] theorem State.modChan_vout (s : State) (k : Nat) (f : Chan → Chan) : (s.modChan k f).vout = s.vout := rfl
@[simp] theorem State.modChan_resends (s : State) (k : Nat) (f : Chan → Chan) : (s.modChan k f).resends = s.resends := rfl
@[simp] theorem State.modChan_staleLog (s : State) (k : Nat) (f : Chan → Chan) : (s.modChan k f).staleLog = s.staleLog := rfl
@[simp] theorem State.modChan_nakLog (s : State) (k : Nat) (f : Chan → Chan) : (s.modChan k f).nakLog = s.nakLog := rfl
@[simp] theorem State.modChan_fns (s : State) (k : Nat) (f : Chan → Chan) : (s.modChan k f).fns = s.fns := rfl
@[simp] theorem State.modChan_completions (s : State) (k : Nat) (f : Chan → Chan) : (s.modChan k f).completions = s.completions := rfl
@[simp] theorem State.modChan_cmdOrder (s : State) (k : Nat) (f : Chan → Chan) : (s.modChan k f).cmdOrder = s.cmdOrder := rfl
@[simp] theorem State.modChan_fuses (s : State) (k : Nat) (f : Chan → Chan) : (s.modChan k f).fuses = s.fuses := rfl
@[simp] theorem State.modChan_attests (s : State) (k : Nat) (f : Chan → Chan) : (s.modChan k f).attests = s.attests := rfl
@[simp] theorem State.modChan_snapshot (s : State) (k : Nat) (f : Chan → Chan) : (s.modChan k f).snapshot = s.snapshot := rfl
@[simp] theorem State.modChan_bulk (s : State) (k : Nat) (f : Chan → Chan) : (s.modChan k f).bulk = s.bulk := rfl
@[simp] theorem State.modChan_inbox (s : State) (k : Nat) (f : Chan → Chan) : (s.modChan k f).inbox = s.inbox := rfl
@[simp] theorem State.modChan_agenda (s : State) (k : Nat) (f : Chan → Chan) : (s.modChan k f).agenda = s.agenda := rfl
@[simp] theorem State.modChan_picks (s : State) (k : Nat) (f : Chan → Chan) : (s.modChan k f).picks = s.picks := rfl
@[simp] theorem State.modChan_draws (s : State) (k : Nat) (f : Chan → Chan) : (s.modChan k f).draws = s.draws := rfl

/-! ## `modNet` changes `nets` -/

@[simp] theorem State.modNet_powered (s : State) (k : Nat) (f : Net → Net) : (s.modNet k f).powered = s.powered := rfl
@[simp] theorem State.modNet_ready (s : State) (k : Nat) (f : Net → Net) : (s.modNet k f).ready = s.ready := rfl
@[simp] theorem State.modNet_hot (s : State) (k : Nat) (f : Net → Net) : (s.modNet k f).hot = s.hot := rfl
@[simp] theorem State.modNet_thermalHeld (s : State) (k : Nat) (f : Net → Net) : (s.modNet k f).thermalHeld = s.thermalHeld := rfl
@[simp] theorem State.modNet_cue (s : State) (k : Nat) (f : Net → Net) : (s.modNet k f).cue = s.cue := rfl
@[simp] theorem State.modNet_cueRef (s : State) (k : Nat) (f : Net → Net) : (s.modNet k f).cueRef = s.cueRef := rfl
@[simp] theorem State.modNet_frame (s : State) (k : Nat) (f : Net → Net) : (s.modNet k f).frame = s.frame := rfl
@[simp] theorem State.modNet_snapTime (s : State) (k : Nat) (f : Net → Net) : (s.modNet k f).snapTime = s.snapTime := rfl
@[simp] theorem State.modNet_cut (s : State) (k : Nat) (f : Net → Net) : (s.modNet k f).cut = s.cut := rfl
@[simp] theorem State.modNet_cur (s : State) (k : Nat) (f : Net → Net) : (s.modNet k f).cur = s.cur := rfl
@[simp] theorem State.modNet_procs (s : State) (k : Nat) (f : Net → Net) : (s.modNet k f).procs = s.procs := rfl
@[simp] theorem State.modNet_strike (s : State) (k : Nat) (f : Net → Net) : (s.modNet k f).strike = s.strike := rfl
@[simp] theorem State.modNet_contexts (s : State) (k : Nat) (f : Net → Net) : (s.modNet k f).contexts = s.contexts := rfl
@[simp] theorem State.modNet_tenants (s : State) (k : Nat) (f : Net → Net) : (s.modNet k f).tenants = s.tenants := rfl
@[simp] theorem State.modNet_chans (s : State) (k : Nat) (f : Net → Net) : (s.modNet k f).chans = s.chans := rfl
@[simp] theorem State.modNet_handleGens (s : State) (k : Nat) (f : Net → Net) : (s.modNet k f).handleGens = s.handleGens := rfl
@[simp] theorem State.modNet_queueHandles (s : State) (k : Nat) (f : Net → Net) : (s.modNet k f).queueHandles = s.queueHandles := rfl
@[simp] theorem State.modNet_tiles (s : State) (k : Nat) (f : Net → Net) : (s.modNet k f).tiles = s.tiles := rfl
@[simp] theorem State.modNet_dies (s : State) (k : Nat) (f : Net → Net) : (s.modNet k f).dies = s.dies := rfl
@[simp] theorem State.modNet_offices (s : State) (k : Nat) (f : Net → Net) : (s.modNet k f).offices = s.offices := rfl
@[simp] theorem State.modNet_mem (s : State) (k : Nat) (f : Net → Net) : (s.modNet k f).mem = s.mem := rfl
@[simp] theorem State.modNet_memPoison (s : State) (k : Nat) (f : Net → Net) : (s.modNet k f).memPoison = s.memPoison := rfl
@[simp] theorem State.modNet_memErrors (s : State) (k : Nat) (f : Net → Net) : (s.modNet k f).memErrors = s.memErrors := rfl
@[simp] theorem State.modNet_servers (s : State) (k : Nat) (f : Net → Net) : (s.modNet k f).servers = s.servers := rfl
@[simp] theorem State.modNet_flight (s : State) (k : Nat) (f : Net → Net) : (s.modNet k f).flight = s.flight := rfl
@[simp] theorem State.modNet_queued (s : State) (k : Nat) (f : Net → Net) : (s.modNet k f).queued = s.queued := rfl
@[simp] theorem State.modNet_replies (s : State) (k : Nat) (f : Net → Net) : (s.modNet k f).replies = s.replies := rfl
@[simp] theorem State.modNet_reqAge (s : State) (k : Nat) (f : Net → Net) : (s.modNet k f).reqAge = s.reqAge := rfl
@[simp] theorem State.modNet_nextReq (s : State) (k : Nat) (f : Net → Net) : (s.modNet k f).nextReq = s.nextReq := rfl
@[simp] theorem State.modNet_usedPages (s : State) (k : Nat) (f : Net → Net) : (s.modNet k f).usedPages = s.usedPages := rfl
@[simp] theorem State.modNet_self (s : State) (k : Nat) (f : Net → Net) : (s.modNet k f).self = s.self := rfl
@[simp] theorem State.modNet_ports (s : State) (k : Nat) (f : Net → Net) : (s.modNet k f).ports = s.ports := rfl
@[simp] theorem State.modNet_routes (s : State) (k : Nat) (f : Net → Net) : (s.modNet k f).routes = s.routes := rfl
@[simp] theorem State.modNet_regs (s : State) (k : Nat) (f : Net → Net) : (s.modNet k f).regs = s.regs := rfl
@[simp] theorem State.modNet_regGens (s : State) (k : Nat) (f : Net → Net) : (s.modNet k f).regGens = s.regGens := rfl
@[simp] theorem State.modNet_imports (s : State) (k : Nat) (f : Net → Net) : (s.modNet k f).imports = s.imports := rfl
@[simp] theorem State.modNet_remotes (s : State) (k : Nat) (f : Net → Net) : (s.modNet k f).remotes = s.remotes := rfl
@[simp] theorem State.modNet_accepted (s : State) (k : Nat) (f : Net → Net) : (s.modNet k f).accepted = s.accepted := rfl
@[simp] theorem State.modNet_messages (s : State) (k : Nat) (f : Net → Net) : (s.modNet k f).messages = s.messages := rfl
@[simp] theorem State.modNet_spilled (s : State) (k : Nat) (f : Net → Net) : (s.modNet k f).spilled = s.spilled := rfl
@[simp] theorem State.modNet_vout (s : State) (k : Nat) (f : Net → Net) : (s.modNet k f).vout = s.vout := rfl
@[simp] theorem State.modNet_resends (s : State) (k : Nat) (f : Net → Net) : (s.modNet k f).resends = s.resends := rfl
@[simp] theorem State.modNet_staleLog (s : State) (k : Nat) (f : Net → Net) : (s.modNet k f).staleLog = s.staleLog := rfl
@[simp] theorem State.modNet_nakLog (s : State) (k : Nat) (f : Net → Net) : (s.modNet k f).nakLog = s.nakLog := rfl
@[simp] theorem State.modNet_fns (s : State) (k : Nat) (f : Net → Net) : (s.modNet k f).fns = s.fns := rfl
@[simp] theorem State.modNet_completions (s : State) (k : Nat) (f : Net → Net) : (s.modNet k f).completions = s.completions := rfl
@[simp] theorem State.modNet_cmdOrder (s : State) (k : Nat) (f : Net → Net) : (s.modNet k f).cmdOrder = s.cmdOrder := rfl
@[simp] theorem State.modNet_fuses (s : State) (k : Nat) (f : Net → Net) : (s.modNet k f).fuses = s.fuses := rfl
@[simp] theorem State.modNet_attests (s : State) (k : Nat) (f : Net → Net) : (s.modNet k f).attests = s.attests := rfl
@[simp] theorem State.modNet_snapshot (s : State) (k : Nat) (f : Net → Net) : (s.modNet k f).snapshot = s.snapshot := rfl
@[simp] theorem State.modNet_bulk (s : State) (k : Nat) (f : Net → Net) : (s.modNet k f).bulk = s.bulk := rfl
@[simp] theorem State.modNet_inbox (s : State) (k : Nat) (f : Net → Net) : (s.modNet k f).inbox = s.inbox := rfl
@[simp] theorem State.modNet_agenda (s : State) (k : Nat) (f : Net → Net) : (s.modNet k f).agenda = s.agenda := rfl
@[simp] theorem State.modNet_picks (s : State) (k : Nat) (f : Net → Net) : (s.modNet k f).picks = s.picks := rfl
@[simp] theorem State.modNet_draws (s : State) (k : Nat) (f : Net → Net) : (s.modNet k f).draws = s.draws := rfl

/-! ## `modTenant` changes `tenants` -/

@[simp] theorem State.modTenant_powered (s : State) (k : Nat) (f : Tenant → Tenant) : (s.modTenant k f).powered = s.powered := rfl
@[simp] theorem State.modTenant_ready (s : State) (k : Nat) (f : Tenant → Tenant) : (s.modTenant k f).ready = s.ready := rfl
@[simp] theorem State.modTenant_hot (s : State) (k : Nat) (f : Tenant → Tenant) : (s.modTenant k f).hot = s.hot := rfl
@[simp] theorem State.modTenant_thermalHeld (s : State) (k : Nat) (f : Tenant → Tenant) : (s.modTenant k f).thermalHeld = s.thermalHeld := rfl
@[simp] theorem State.modTenant_cue (s : State) (k : Nat) (f : Tenant → Tenant) : (s.modTenant k f).cue = s.cue := rfl
@[simp] theorem State.modTenant_cueRef (s : State) (k : Nat) (f : Tenant → Tenant) : (s.modTenant k f).cueRef = s.cueRef := rfl
@[simp] theorem State.modTenant_frame (s : State) (k : Nat) (f : Tenant → Tenant) : (s.modTenant k f).frame = s.frame := rfl
@[simp] theorem State.modTenant_snapTime (s : State) (k : Nat) (f : Tenant → Tenant) : (s.modTenant k f).snapTime = s.snapTime := rfl
@[simp] theorem State.modTenant_cut (s : State) (k : Nat) (f : Tenant → Tenant) : (s.modTenant k f).cut = s.cut := rfl
@[simp] theorem State.modTenant_cur (s : State) (k : Nat) (f : Tenant → Tenant) : (s.modTenant k f).cur = s.cur := rfl
@[simp] theorem State.modTenant_procs (s : State) (k : Nat) (f : Tenant → Tenant) : (s.modTenant k f).procs = s.procs := rfl
@[simp] theorem State.modTenant_strike (s : State) (k : Nat) (f : Tenant → Tenant) : (s.modTenant k f).strike = s.strike := rfl
@[simp] theorem State.modTenant_contexts (s : State) (k : Nat) (f : Tenant → Tenant) : (s.modTenant k f).contexts = s.contexts := rfl
@[simp] theorem State.modTenant_nets (s : State) (k : Nat) (f : Tenant → Tenant) : (s.modTenant k f).nets = s.nets := rfl
@[simp] theorem State.modTenant_chans (s : State) (k : Nat) (f : Tenant → Tenant) : (s.modTenant k f).chans = s.chans := rfl
@[simp] theorem State.modTenant_handleGens (s : State) (k : Nat) (f : Tenant → Tenant) : (s.modTenant k f).handleGens = s.handleGens := rfl
@[simp] theorem State.modTenant_queueHandles (s : State) (k : Nat) (f : Tenant → Tenant) : (s.modTenant k f).queueHandles = s.queueHandles := rfl
@[simp] theorem State.modTenant_tiles (s : State) (k : Nat) (f : Tenant → Tenant) : (s.modTenant k f).tiles = s.tiles := rfl
@[simp] theorem State.modTenant_dies (s : State) (k : Nat) (f : Tenant → Tenant) : (s.modTenant k f).dies = s.dies := rfl
@[simp] theorem State.modTenant_offices (s : State) (k : Nat) (f : Tenant → Tenant) : (s.modTenant k f).offices = s.offices := rfl
@[simp] theorem State.modTenant_mem (s : State) (k : Nat) (f : Tenant → Tenant) : (s.modTenant k f).mem = s.mem := rfl
@[simp] theorem State.modTenant_memPoison (s : State) (k : Nat) (f : Tenant → Tenant) : (s.modTenant k f).memPoison = s.memPoison := rfl
@[simp] theorem State.modTenant_memErrors (s : State) (k : Nat) (f : Tenant → Tenant) : (s.modTenant k f).memErrors = s.memErrors := rfl
@[simp] theorem State.modTenant_servers (s : State) (k : Nat) (f : Tenant → Tenant) : (s.modTenant k f).servers = s.servers := rfl
@[simp] theorem State.modTenant_flight (s : State) (k : Nat) (f : Tenant → Tenant) : (s.modTenant k f).flight = s.flight := rfl
@[simp] theorem State.modTenant_queued (s : State) (k : Nat) (f : Tenant → Tenant) : (s.modTenant k f).queued = s.queued := rfl
@[simp] theorem State.modTenant_replies (s : State) (k : Nat) (f : Tenant → Tenant) : (s.modTenant k f).replies = s.replies := rfl
@[simp] theorem State.modTenant_reqAge (s : State) (k : Nat) (f : Tenant → Tenant) : (s.modTenant k f).reqAge = s.reqAge := rfl
@[simp] theorem State.modTenant_nextReq (s : State) (k : Nat) (f : Tenant → Tenant) : (s.modTenant k f).nextReq = s.nextReq := rfl
@[simp] theorem State.modTenant_usedPages (s : State) (k : Nat) (f : Tenant → Tenant) : (s.modTenant k f).usedPages = s.usedPages := rfl
@[simp] theorem State.modTenant_self (s : State) (k : Nat) (f : Tenant → Tenant) : (s.modTenant k f).self = s.self := rfl
@[simp] theorem State.modTenant_ports (s : State) (k : Nat) (f : Tenant → Tenant) : (s.modTenant k f).ports = s.ports := rfl
@[simp] theorem State.modTenant_routes (s : State) (k : Nat) (f : Tenant → Tenant) : (s.modTenant k f).routes = s.routes := rfl
@[simp] theorem State.modTenant_regs (s : State) (k : Nat) (f : Tenant → Tenant) : (s.modTenant k f).regs = s.regs := rfl
@[simp] theorem State.modTenant_regGens (s : State) (k : Nat) (f : Tenant → Tenant) : (s.modTenant k f).regGens = s.regGens := rfl
@[simp] theorem State.modTenant_imports (s : State) (k : Nat) (f : Tenant → Tenant) : (s.modTenant k f).imports = s.imports := rfl
@[simp] theorem State.modTenant_remotes (s : State) (k : Nat) (f : Tenant → Tenant) : (s.modTenant k f).remotes = s.remotes := rfl
@[simp] theorem State.modTenant_accepted (s : State) (k : Nat) (f : Tenant → Tenant) : (s.modTenant k f).accepted = s.accepted := rfl
@[simp] theorem State.modTenant_messages (s : State) (k : Nat) (f : Tenant → Tenant) : (s.modTenant k f).messages = s.messages := rfl
@[simp] theorem State.modTenant_spilled (s : State) (k : Nat) (f : Tenant → Tenant) : (s.modTenant k f).spilled = s.spilled := rfl
@[simp] theorem State.modTenant_vout (s : State) (k : Nat) (f : Tenant → Tenant) : (s.modTenant k f).vout = s.vout := rfl
@[simp] theorem State.modTenant_resends (s : State) (k : Nat) (f : Tenant → Tenant) : (s.modTenant k f).resends = s.resends := rfl
@[simp] theorem State.modTenant_staleLog (s : State) (k : Nat) (f : Tenant → Tenant) : (s.modTenant k f).staleLog = s.staleLog := rfl
@[simp] theorem State.modTenant_nakLog (s : State) (k : Nat) (f : Tenant → Tenant) : (s.modTenant k f).nakLog = s.nakLog := rfl
@[simp] theorem State.modTenant_fns (s : State) (k : Nat) (f : Tenant → Tenant) : (s.modTenant k f).fns = s.fns := rfl
@[simp] theorem State.modTenant_completions (s : State) (k : Nat) (f : Tenant → Tenant) : (s.modTenant k f).completions = s.completions := rfl
@[simp] theorem State.modTenant_cmdOrder (s : State) (k : Nat) (f : Tenant → Tenant) : (s.modTenant k f).cmdOrder = s.cmdOrder := rfl
@[simp] theorem State.modTenant_fuses (s : State) (k : Nat) (f : Tenant → Tenant) : (s.modTenant k f).fuses = s.fuses := rfl
@[simp] theorem State.modTenant_attests (s : State) (k : Nat) (f : Tenant → Tenant) : (s.modTenant k f).attests = s.attests := rfl
@[simp] theorem State.modTenant_snapshot (s : State) (k : Nat) (f : Tenant → Tenant) : (s.modTenant k f).snapshot = s.snapshot := rfl
@[simp] theorem State.modTenant_bulk (s : State) (k : Nat) (f : Tenant → Tenant) : (s.modTenant k f).bulk = s.bulk := rfl
@[simp] theorem State.modTenant_inbox (s : State) (k : Nat) (f : Tenant → Tenant) : (s.modTenant k f).inbox = s.inbox := rfl
@[simp] theorem State.modTenant_agenda (s : State) (k : Nat) (f : Tenant → Tenant) : (s.modTenant k f).agenda = s.agenda := rfl
@[simp] theorem State.modTenant_picks (s : State) (k : Nat) (f : Tenant → Tenant) : (s.modTenant k f).picks = s.picks := rfl
@[simp] theorem State.modTenant_draws (s : State) (k : Nat) (f : Tenant → Tenant) : (s.modTenant k f).draws = s.draws := rfl

/-! ## `modFn` changes `fns` -/

@[simp] theorem State.modFn_powered (s : State) (k : Nat) (f : Fn → Fn) : (s.modFn k f).powered = s.powered := rfl
@[simp] theorem State.modFn_ready (s : State) (k : Nat) (f : Fn → Fn) : (s.modFn k f).ready = s.ready := rfl
@[simp] theorem State.modFn_hot (s : State) (k : Nat) (f : Fn → Fn) : (s.modFn k f).hot = s.hot := rfl
@[simp] theorem State.modFn_thermalHeld (s : State) (k : Nat) (f : Fn → Fn) : (s.modFn k f).thermalHeld = s.thermalHeld := rfl
@[simp] theorem State.modFn_cue (s : State) (k : Nat) (f : Fn → Fn) : (s.modFn k f).cue = s.cue := rfl
@[simp] theorem State.modFn_cueRef (s : State) (k : Nat) (f : Fn → Fn) : (s.modFn k f).cueRef = s.cueRef := rfl
@[simp] theorem State.modFn_frame (s : State) (k : Nat) (f : Fn → Fn) : (s.modFn k f).frame = s.frame := rfl
@[simp] theorem State.modFn_snapTime (s : State) (k : Nat) (f : Fn → Fn) : (s.modFn k f).snapTime = s.snapTime := rfl
@[simp] theorem State.modFn_cut (s : State) (k : Nat) (f : Fn → Fn) : (s.modFn k f).cut = s.cut := rfl
@[simp] theorem State.modFn_cur (s : State) (k : Nat) (f : Fn → Fn) : (s.modFn k f).cur = s.cur := rfl
@[simp] theorem State.modFn_procs (s : State) (k : Nat) (f : Fn → Fn) : (s.modFn k f).procs = s.procs := rfl
@[simp] theorem State.modFn_strike (s : State) (k : Nat) (f : Fn → Fn) : (s.modFn k f).strike = s.strike := rfl
@[simp] theorem State.modFn_contexts (s : State) (k : Nat) (f : Fn → Fn) : (s.modFn k f).contexts = s.contexts := rfl
@[simp] theorem State.modFn_nets (s : State) (k : Nat) (f : Fn → Fn) : (s.modFn k f).nets = s.nets := rfl
@[simp] theorem State.modFn_tenants (s : State) (k : Nat) (f : Fn → Fn) : (s.modFn k f).tenants = s.tenants := rfl
@[simp] theorem State.modFn_chans (s : State) (k : Nat) (f : Fn → Fn) : (s.modFn k f).chans = s.chans := rfl
@[simp] theorem State.modFn_handleGens (s : State) (k : Nat) (f : Fn → Fn) : (s.modFn k f).handleGens = s.handleGens := rfl
@[simp] theorem State.modFn_queueHandles (s : State) (k : Nat) (f : Fn → Fn) : (s.modFn k f).queueHandles = s.queueHandles := rfl
@[simp] theorem State.modFn_tiles (s : State) (k : Nat) (f : Fn → Fn) : (s.modFn k f).tiles = s.tiles := rfl
@[simp] theorem State.modFn_dies (s : State) (k : Nat) (f : Fn → Fn) : (s.modFn k f).dies = s.dies := rfl
@[simp] theorem State.modFn_offices (s : State) (k : Nat) (f : Fn → Fn) : (s.modFn k f).offices = s.offices := rfl
@[simp] theorem State.modFn_mem (s : State) (k : Nat) (f : Fn → Fn) : (s.modFn k f).mem = s.mem := rfl
@[simp] theorem State.modFn_memPoison (s : State) (k : Nat) (f : Fn → Fn) : (s.modFn k f).memPoison = s.memPoison := rfl
@[simp] theorem State.modFn_memErrors (s : State) (k : Nat) (f : Fn → Fn) : (s.modFn k f).memErrors = s.memErrors := rfl
@[simp] theorem State.modFn_servers (s : State) (k : Nat) (f : Fn → Fn) : (s.modFn k f).servers = s.servers := rfl
@[simp] theorem State.modFn_flight (s : State) (k : Nat) (f : Fn → Fn) : (s.modFn k f).flight = s.flight := rfl
@[simp] theorem State.modFn_queued (s : State) (k : Nat) (f : Fn → Fn) : (s.modFn k f).queued = s.queued := rfl
@[simp] theorem State.modFn_replies (s : State) (k : Nat) (f : Fn → Fn) : (s.modFn k f).replies = s.replies := rfl
@[simp] theorem State.modFn_reqAge (s : State) (k : Nat) (f : Fn → Fn) : (s.modFn k f).reqAge = s.reqAge := rfl
@[simp] theorem State.modFn_nextReq (s : State) (k : Nat) (f : Fn → Fn) : (s.modFn k f).nextReq = s.nextReq := rfl
@[simp] theorem State.modFn_usedPages (s : State) (k : Nat) (f : Fn → Fn) : (s.modFn k f).usedPages = s.usedPages := rfl
@[simp] theorem State.modFn_self (s : State) (k : Nat) (f : Fn → Fn) : (s.modFn k f).self = s.self := rfl
@[simp] theorem State.modFn_ports (s : State) (k : Nat) (f : Fn → Fn) : (s.modFn k f).ports = s.ports := rfl
@[simp] theorem State.modFn_routes (s : State) (k : Nat) (f : Fn → Fn) : (s.modFn k f).routes = s.routes := rfl
@[simp] theorem State.modFn_regs (s : State) (k : Nat) (f : Fn → Fn) : (s.modFn k f).regs = s.regs := rfl
@[simp] theorem State.modFn_regGens (s : State) (k : Nat) (f : Fn → Fn) : (s.modFn k f).regGens = s.regGens := rfl
@[simp] theorem State.modFn_imports (s : State) (k : Nat) (f : Fn → Fn) : (s.modFn k f).imports = s.imports := rfl
@[simp] theorem State.modFn_remotes (s : State) (k : Nat) (f : Fn → Fn) : (s.modFn k f).remotes = s.remotes := rfl
@[simp] theorem State.modFn_accepted (s : State) (k : Nat) (f : Fn → Fn) : (s.modFn k f).accepted = s.accepted := rfl
@[simp] theorem State.modFn_messages (s : State) (k : Nat) (f : Fn → Fn) : (s.modFn k f).messages = s.messages := rfl
@[simp] theorem State.modFn_spilled (s : State) (k : Nat) (f : Fn → Fn) : (s.modFn k f).spilled = s.spilled := rfl
@[simp] theorem State.modFn_vout (s : State) (k : Nat) (f : Fn → Fn) : (s.modFn k f).vout = s.vout := rfl
@[simp] theorem State.modFn_resends (s : State) (k : Nat) (f : Fn → Fn) : (s.modFn k f).resends = s.resends := rfl
@[simp] theorem State.modFn_staleLog (s : State) (k : Nat) (f : Fn → Fn) : (s.modFn k f).staleLog = s.staleLog := rfl
@[simp] theorem State.modFn_nakLog (s : State) (k : Nat) (f : Fn → Fn) : (s.modFn k f).nakLog = s.nakLog := rfl
@[simp] theorem State.modFn_completions (s : State) (k : Nat) (f : Fn → Fn) : (s.modFn k f).completions = s.completions := rfl
@[simp] theorem State.modFn_cmdOrder (s : State) (k : Nat) (f : Fn → Fn) : (s.modFn k f).cmdOrder = s.cmdOrder := rfl
@[simp] theorem State.modFn_fuses (s : State) (k : Nat) (f : Fn → Fn) : (s.modFn k f).fuses = s.fuses := rfl
@[simp] theorem State.modFn_attests (s : State) (k : Nat) (f : Fn → Fn) : (s.modFn k f).attests = s.attests := rfl
@[simp] theorem State.modFn_snapshot (s : State) (k : Nat) (f : Fn → Fn) : (s.modFn k f).snapshot = s.snapshot := rfl
@[simp] theorem State.modFn_bulk (s : State) (k : Nat) (f : Fn → Fn) : (s.modFn k f).bulk = s.bulk := rfl
@[simp] theorem State.modFn_inbox (s : State) (k : Nat) (f : Fn → Fn) : (s.modFn k f).inbox = s.inbox := rfl
@[simp] theorem State.modFn_agenda (s : State) (k : Nat) (f : Fn → Fn) : (s.modFn k f).agenda = s.agenda := rfl
@[simp] theorem State.modFn_picks (s : State) (k : Nat) (f : Fn → Fn) : (s.modFn k f).picks = s.picks := rfl
@[simp] theorem State.modFn_draws (s : State) (k : Nat) (f : Fn → Fn) : (s.modFn k f).draws = s.draws := rfl

/-! ## `Proc.advance` changes `pc` -/

@[simp] theorem Proc.advance_tenant (p : Proc) : p.advance.tenant = p.tenant := rfl
@[simp] theorem Proc.advance_net (p : Proc) : p.advance.net = p.net := rfl
@[simp] theorem Proc.advance_desc (p : Proc) : p.advance.desc = p.desc := rfl
@[simp] theorem Proc.advance_ldie (p : Proc) : p.advance.ldie = p.ldie := rfl
@[simp] theorem Proc.advance_tile (p : Proc) : p.advance.tile = p.tile := rfl
@[simp] theorem Proc.advance_slot (p : Proc) : p.advance.slot = p.slot := rfl
@[simp] theorem Proc.advance_st (p : Proc) : p.advance.st = p.st := rfl
@[simp] theorem Proc.advance_park (p : Proc) : p.advance.park = p.park := rfl
@[simp] theorem Proc.advance_frozen (p : Proc) : p.advance.frozen = p.frozen := rfl
@[simp] theorem Proc.advance_woken (p : Proc) : p.advance.woken = p.woken := rfl
@[simp] theorem Proc.advance_pend (p : Proc) : p.advance.pend = p.pend := rfl
@[simp] theorem Proc.advance_record (p : Proc) : p.advance.record = p.record := rfl
@[simp] theorem Proc.advance_g (p : Proc) : p.advance.g = p.g := rfl
@[simp] theorem Proc.advance_priv (p : Proc) : p.advance.priv = p.priv := rfl
@[simp] theorem Proc.advance_trap (p : Proc) : p.advance.trap = p.trap := rfl
@[simp] theorem Proc.advance_eff (p : Proc) : p.advance.eff = p.eff := rfl
@[simp] theorem Proc.advance_sigctl (p : Proc) : p.advance.sigctl = p.sigctl := rfl
@[simp] theorem Proc.advance_sig (p : Proc) : p.advance.sig = p.sig := rfl
@[simp] theorem Proc.advance_sigOld (p : Proc) : p.advance.sigOld = p.sigOld := rfl
@[simp] theorem Proc.advance_vflags (p : Proc) : p.advance.vflags = p.vflags := rfl
@[simp] theorem Proc.advance_ffe (p : Proc) : p.advance.ffe = p.ffe := rfl
@[simp] theorem Proc.advance_xtab0 (p : Proc) : p.advance.xtab0 = p.xtab0 := rfl
@[simp] theorem Proc.advance_xtab1 (p : Proc) : p.advance.xtab1 = p.xtab1 := rfl
@[simp] theorem Proc.advance_srseed (p : Proc) : p.advance.srseed = p.srseed := rfl
@[simp] theorem Proc.advance_encoreEn (p : Proc) : p.advance.encoreEn = p.encoreEn := rfl
@[simp] theorem Proc.advance_replays (p : Proc) : p.advance.replays = p.replays := rfl
@[simp] theorem Proc.advance_vbcnt (p : Proc) : p.advance.vbcnt = p.vbcnt := rfl
@[simp] theorem Proc.advance_geom (p : Proc) : p.advance.geom = p.geom := rfl
@[simp] theorem Proc.advance_rows (p : Proc) : p.advance.rows = p.rows := rfl
@[simp] theorem Proc.advance_rowPoison (p : Proc) : p.advance.rowPoison = p.rowPoison := rfl
@[simp] theorem Proc.advance_masks (p : Proc) : p.advance.masks = p.masks := rfl
@[simp] theorem Proc.advance_acc (p : Proc) : p.advance.acc = p.acc := rfl
@[simp] theorem Proc.advance_accPoison (p : Proc) : p.advance.accPoison = p.accPoison := rfl
@[simp] theorem Proc.advance_latch (p : Proc) : p.advance.latch = p.latch := rfl
@[simp] theorem Proc.advance_latchPoison (p : Proc) : p.advance.latchPoison = p.latchPoison := rfl
@[simp] theorem Proc.advance_claim (p : Proc) : p.advance.claim = p.claim := rfl
@[simp] theorem Proc.advance_rounds (p : Proc) : p.advance.rounds = p.rounds := rfl
@[simp] theorem Proc.advance_ringWait (p : Proc) : p.advance.ringWait = p.ringWait := rfl
@[simp] theorem Proc.advance_grant (p : Proc) : p.advance.grant = p.grant := rfl
@[simp] theorem Proc.advance_queue (p : Proc) : p.advance.queue = p.queue := rfl
@[simp] theorem Proc.advance_tasks (p : Proc) : p.advance.tasks = p.tasks := rfl
@[simp] theorem Proc.advance_convoys (p : Proc) : p.advance.convoys = p.convoys := rfl
@[simp] theorem Proc.advance_nextId (p : Proc) : p.advance.nextId = p.nextId := rfl
@[simp] theorem Proc.advance_pending (p : Proc) : p.advance.pending = p.pending := rfl
@[simp] theorem Proc.advance_streams (p : Proc) : p.advance.streams = p.streams := rfl
@[simp] theorem Proc.advance_closing (p : Proc) : p.advance.closing = p.closing := rfl
@[simp] theorem Proc.advance_cue (p : Proc) : p.advance.cue = p.cue := rfl
@[simp] theorem Proc.advance_cueWait (p : Proc) : p.advance.cueWait = p.cueWait := rfl
@[simp] theorem Proc.advance_ports (p : Proc) : p.advance.ports = p.ports := rfl
@[simp] theorem Proc.advance_launches (p : Proc) : p.advance.launches = p.launches := rfl
@[simp] theorem Proc.advance_queries (p : Proc) : p.advance.queries = p.queries := rfl
@[simp] theorem Proc.advance_xq (p : Proc) : p.advance.xq = p.xq := rfl
@[simp] theorem Proc.advance_triggers (p : Proc) : p.advance.triggers = p.triggers := rfl
@[simp] theorem Proc.advance_coll (p : Proc) : p.advance.coll = p.coll := rfl
@[simp] theorem Proc.advance_collIssued (p : Proc) : p.advance.collIssued = p.collIssued := rfl
@[simp] theorem Proc.advance_colls (p : Proc) : p.advance.colls = p.colls := rfl
@[simp] theorem Proc.advance_collFault (p : Proc) : p.advance.collFault = p.collFault := rfl
@[simp] theorem Proc.advance_heldDigests (p : Proc) : p.advance.heldDigests = p.heldDigests := rfl
@[simp] theorem Proc.advance_heldMarkers (p : Proc) : p.advance.heldMarkers = p.heldMarkers := rfl
@[simp] theorem Proc.advance_heldChunks (p : Proc) : p.advance.heldChunks = p.heldChunks := rfl
@[simp] theorem Proc.advance_resvUnits (p : Proc) : p.advance.resvUnits = p.resvUnits := rfl
@[simp] theorem Proc.advance_resvNext (p : Proc) : p.advance.resvNext = p.resvNext := rfl
@[simp] theorem Proc.advance_saved (p : Proc) : p.advance.saved = p.saved := rfl
@[simp] theorem Proc.advance_ctxLost (p : Proc) : p.advance.ctxLost = p.ctxLost := rfl
@[simp] theorem Proc.advance_savedEvents (p : Proc) : p.advance.savedEvents = p.savedEvents := rfl
@[simp] theorem Proc.advance_kept (p : Proc) : p.advance.kept = p.kept := rfl
@[simp] theorem Proc.advance_savePages (p : Proc) : p.advance.savePages = p.savePages := rfl
@[simp] theorem Proc.advance_moved (p : Proc) : p.advance.moved = p.moved := rfl
@[simp] theorem Proc.advance_movedEnds (p : Proc) : p.advance.movedEnds = p.movedEnds := rfl
@[simp] theorem Proc.advance_storeSeq (p : Proc) : p.advance.storeSeq = p.storeSeq := rfl
@[simp] theorem Proc.advance_acks (p : Proc) : p.advance.acks = p.acks := rfl
@[simp] theorem Proc.advance_pc (p : Proc) : p.advance.pc = p.pc + 4 := rfl

/-! ## `Proc.wr` changes `g` -/

@[simp] theorem Proc.wr_tenant (p : Proc) (r : GReg) (x : Word) : (p.wr r x).tenant = p.tenant := by
  unfold Proc.wr; split <;> rfl
@[simp] theorem Proc.wr_net (p : Proc) (r : GReg) (x : Word) : (p.wr r x).net = p.net := by
  unfold Proc.wr; split <;> rfl
@[simp] theorem Proc.wr_desc (p : Proc) (r : GReg) (x : Word) : (p.wr r x).desc = p.desc := by
  unfold Proc.wr; split <;> rfl
@[simp] theorem Proc.wr_ldie (p : Proc) (r : GReg) (x : Word) : (p.wr r x).ldie = p.ldie := by
  unfold Proc.wr; split <;> rfl
@[simp] theorem Proc.wr_tile (p : Proc) (r : GReg) (x : Word) : (p.wr r x).tile = p.tile := by
  unfold Proc.wr; split <;> rfl
@[simp] theorem Proc.wr_slot (p : Proc) (r : GReg) (x : Word) : (p.wr r x).slot = p.slot := by
  unfold Proc.wr; split <;> rfl
@[simp] theorem Proc.wr_st (p : Proc) (r : GReg) (x : Word) : (p.wr r x).st = p.st := by
  unfold Proc.wr; split <;> rfl
@[simp] theorem Proc.wr_park (p : Proc) (r : GReg) (x : Word) : (p.wr r x).park = p.park := by
  unfold Proc.wr; split <;> rfl
@[simp] theorem Proc.wr_frozen (p : Proc) (r : GReg) (x : Word) : (p.wr r x).frozen = p.frozen := by
  unfold Proc.wr; split <;> rfl
@[simp] theorem Proc.wr_woken (p : Proc) (r : GReg) (x : Word) : (p.wr r x).woken = p.woken := by
  unfold Proc.wr; split <;> rfl
@[simp] theorem Proc.wr_pend (p : Proc) (r : GReg) (x : Word) : (p.wr r x).pend = p.pend := by
  unfold Proc.wr; split <;> rfl
@[simp] theorem Proc.wr_record (p : Proc) (r : GReg) (x : Word) : (p.wr r x).record = p.record := by
  unfold Proc.wr; split <;> rfl
@[simp] theorem Proc.wr_pc (p : Proc) (r : GReg) (x : Word) : (p.wr r x).pc = p.pc := by
  unfold Proc.wr; split <;> rfl
@[simp] theorem Proc.wr_priv (p : Proc) (r : GReg) (x : Word) : (p.wr r x).priv = p.priv := by
  unfold Proc.wr; split <;> rfl
@[simp] theorem Proc.wr_trap (p : Proc) (r : GReg) (x : Word) : (p.wr r x).trap = p.trap := by
  unfold Proc.wr; split <;> rfl
@[simp] theorem Proc.wr_eff (p : Proc) (r : GReg) (x : Word) : (p.wr r x).eff = p.eff := by
  unfold Proc.wr; split <;> rfl
@[simp] theorem Proc.wr_sigctl (p : Proc) (r : GReg) (x : Word) : (p.wr r x).sigctl = p.sigctl := by
  unfold Proc.wr; split <;> rfl
@[simp] theorem Proc.wr_sig (p : Proc) (r : GReg) (x : Word) : (p.wr r x).sig = p.sig := by
  unfold Proc.wr; split <;> rfl
@[simp] theorem Proc.wr_sigOld (p : Proc) (r : GReg) (x : Word) : (p.wr r x).sigOld = p.sigOld := by
  unfold Proc.wr; split <;> rfl
@[simp] theorem Proc.wr_vflags (p : Proc) (r : GReg) (x : Word) : (p.wr r x).vflags = p.vflags := by
  unfold Proc.wr; split <;> rfl
@[simp] theorem Proc.wr_ffe (p : Proc) (r : GReg) (x : Word) : (p.wr r x).ffe = p.ffe := by
  unfold Proc.wr; split <;> rfl
@[simp] theorem Proc.wr_xtab0 (p : Proc) (r : GReg) (x : Word) : (p.wr r x).xtab0 = p.xtab0 := by
  unfold Proc.wr; split <;> rfl
@[simp] theorem Proc.wr_xtab1 (p : Proc) (r : GReg) (x : Word) : (p.wr r x).xtab1 = p.xtab1 := by
  unfold Proc.wr; split <;> rfl
@[simp] theorem Proc.wr_srseed (p : Proc) (r : GReg) (x : Word) : (p.wr r x).srseed = p.srseed := by
  unfold Proc.wr; split <;> rfl
@[simp] theorem Proc.wr_encoreEn (p : Proc) (r : GReg) (x : Word) : (p.wr r x).encoreEn = p.encoreEn := by
  unfold Proc.wr; split <;> rfl
@[simp] theorem Proc.wr_replays (p : Proc) (r : GReg) (x : Word) : (p.wr r x).replays = p.replays := by
  unfold Proc.wr; split <;> rfl
@[simp] theorem Proc.wr_vbcnt (p : Proc) (r : GReg) (x : Word) : (p.wr r x).vbcnt = p.vbcnt := by
  unfold Proc.wr; split <;> rfl
@[simp] theorem Proc.wr_geom (p : Proc) (r : GReg) (x : Word) : (p.wr r x).geom = p.geom := by
  unfold Proc.wr; split <;> rfl
@[simp] theorem Proc.wr_rows (p : Proc) (r : GReg) (x : Word) : (p.wr r x).rows = p.rows := by
  unfold Proc.wr; split <;> rfl
@[simp] theorem Proc.wr_rowPoison (p : Proc) (r : GReg) (x : Word) : (p.wr r x).rowPoison = p.rowPoison := by
  unfold Proc.wr; split <;> rfl
@[simp] theorem Proc.wr_masks (p : Proc) (r : GReg) (x : Word) : (p.wr r x).masks = p.masks := by
  unfold Proc.wr; split <;> rfl
@[simp] theorem Proc.wr_acc (p : Proc) (r : GReg) (x : Word) : (p.wr r x).acc = p.acc := by
  unfold Proc.wr; split <;> rfl
@[simp] theorem Proc.wr_accPoison (p : Proc) (r : GReg) (x : Word) : (p.wr r x).accPoison = p.accPoison := by
  unfold Proc.wr; split <;> rfl
@[simp] theorem Proc.wr_latch (p : Proc) (r : GReg) (x : Word) : (p.wr r x).latch = p.latch := by
  unfold Proc.wr; split <;> rfl
@[simp] theorem Proc.wr_latchPoison (p : Proc) (r : GReg) (x : Word) : (p.wr r x).latchPoison = p.latchPoison := by
  unfold Proc.wr; split <;> rfl
@[simp] theorem Proc.wr_claim (p : Proc) (r : GReg) (x : Word) : (p.wr r x).claim = p.claim := by
  unfold Proc.wr; split <;> rfl
@[simp] theorem Proc.wr_rounds (p : Proc) (r : GReg) (x : Word) : (p.wr r x).rounds = p.rounds := by
  unfold Proc.wr; split <;> rfl
@[simp] theorem Proc.wr_ringWait (p : Proc) (r : GReg) (x : Word) : (p.wr r x).ringWait = p.ringWait := by
  unfold Proc.wr; split <;> rfl
@[simp] theorem Proc.wr_grant (p : Proc) (r : GReg) (x : Word) : (p.wr r x).grant = p.grant := by
  unfold Proc.wr; split <;> rfl
@[simp] theorem Proc.wr_queue (p : Proc) (r : GReg) (x : Word) : (p.wr r x).queue = p.queue := by
  unfold Proc.wr; split <;> rfl
@[simp] theorem Proc.wr_tasks (p : Proc) (r : GReg) (x : Word) : (p.wr r x).tasks = p.tasks := by
  unfold Proc.wr; split <;> rfl
@[simp] theorem Proc.wr_convoys (p : Proc) (r : GReg) (x : Word) : (p.wr r x).convoys = p.convoys := by
  unfold Proc.wr; split <;> rfl
@[simp] theorem Proc.wr_nextId (p : Proc) (r : GReg) (x : Word) : (p.wr r x).nextId = p.nextId := by
  unfold Proc.wr; split <;> rfl
@[simp] theorem Proc.wr_pending (p : Proc) (r : GReg) (x : Word) : (p.wr r x).pending = p.pending := by
  unfold Proc.wr; split <;> rfl
@[simp] theorem Proc.wr_streams (p : Proc) (r : GReg) (x : Word) : (p.wr r x).streams = p.streams := by
  unfold Proc.wr; split <;> rfl
@[simp] theorem Proc.wr_closing (p : Proc) (r : GReg) (x : Word) : (p.wr r x).closing = p.closing := by
  unfold Proc.wr; split <;> rfl
@[simp] theorem Proc.wr_cue (p : Proc) (r : GReg) (x : Word) : (p.wr r x).cue = p.cue := by
  unfold Proc.wr; split <;> rfl
@[simp] theorem Proc.wr_cueWait (p : Proc) (r : GReg) (x : Word) : (p.wr r x).cueWait = p.cueWait := by
  unfold Proc.wr; split <;> rfl
@[simp] theorem Proc.wr_ports (p : Proc) (r : GReg) (x : Word) : (p.wr r x).ports = p.ports := by
  unfold Proc.wr; split <;> rfl
@[simp] theorem Proc.wr_launches (p : Proc) (r : GReg) (x : Word) : (p.wr r x).launches = p.launches := by
  unfold Proc.wr; split <;> rfl
@[simp] theorem Proc.wr_queries (p : Proc) (r : GReg) (x : Word) : (p.wr r x).queries = p.queries := by
  unfold Proc.wr; split <;> rfl
@[simp] theorem Proc.wr_xq (p : Proc) (r : GReg) (x : Word) : (p.wr r x).xq = p.xq := by
  unfold Proc.wr; split <;> rfl
@[simp] theorem Proc.wr_triggers (p : Proc) (r : GReg) (x : Word) : (p.wr r x).triggers = p.triggers := by
  unfold Proc.wr; split <;> rfl
@[simp] theorem Proc.wr_coll (p : Proc) (r : GReg) (x : Word) : (p.wr r x).coll = p.coll := by
  unfold Proc.wr; split <;> rfl
@[simp] theorem Proc.wr_collIssued (p : Proc) (r : GReg) (x : Word) : (p.wr r x).collIssued = p.collIssued := by
  unfold Proc.wr; split <;> rfl
@[simp] theorem Proc.wr_colls (p : Proc) (r : GReg) (x : Word) : (p.wr r x).colls = p.colls := by
  unfold Proc.wr; split <;> rfl
@[simp] theorem Proc.wr_collFault (p : Proc) (r : GReg) (x : Word) : (p.wr r x).collFault = p.collFault := by
  unfold Proc.wr; split <;> rfl
@[simp] theorem Proc.wr_heldDigests (p : Proc) (r : GReg) (x : Word) : (p.wr r x).heldDigests = p.heldDigests := by
  unfold Proc.wr; split <;> rfl
@[simp] theorem Proc.wr_heldMarkers (p : Proc) (r : GReg) (x : Word) : (p.wr r x).heldMarkers = p.heldMarkers := by
  unfold Proc.wr; split <;> rfl
@[simp] theorem Proc.wr_heldChunks (p : Proc) (r : GReg) (x : Word) : (p.wr r x).heldChunks = p.heldChunks := by
  unfold Proc.wr; split <;> rfl
@[simp] theorem Proc.wr_resvUnits (p : Proc) (r : GReg) (x : Word) : (p.wr r x).resvUnits = p.resvUnits := by
  unfold Proc.wr; split <;> rfl
@[simp] theorem Proc.wr_resvNext (p : Proc) (r : GReg) (x : Word) : (p.wr r x).resvNext = p.resvNext := by
  unfold Proc.wr; split <;> rfl
@[simp] theorem Proc.wr_saved (p : Proc) (r : GReg) (x : Word) : (p.wr r x).saved = p.saved := by
  unfold Proc.wr; split <;> rfl
@[simp] theorem Proc.wr_ctxLost (p : Proc) (r : GReg) (x : Word) : (p.wr r x).ctxLost = p.ctxLost := by
  unfold Proc.wr; split <;> rfl
@[simp] theorem Proc.wr_savedEvents (p : Proc) (r : GReg) (x : Word) : (p.wr r x).savedEvents = p.savedEvents := by
  unfold Proc.wr; split <;> rfl
@[simp] theorem Proc.wr_kept (p : Proc) (r : GReg) (x : Word) : (p.wr r x).kept = p.kept := by
  unfold Proc.wr; split <;> rfl
@[simp] theorem Proc.wr_savePages (p : Proc) (r : GReg) (x : Word) : (p.wr r x).savePages = p.savePages := by
  unfold Proc.wr; split <;> rfl
@[simp] theorem Proc.wr_moved (p : Proc) (r : GReg) (x : Word) : (p.wr r x).moved = p.moved := by
  unfold Proc.wr; split <;> rfl
@[simp] theorem Proc.wr_movedEnds (p : Proc) (r : GReg) (x : Word) : (p.wr r x).movedEnds = p.movedEnds := by
  unfold Proc.wr; split <;> rfl
@[simp] theorem Proc.wr_storeSeq (p : Proc) (r : GReg) (x : Word) : (p.wr r x).storeSeq = p.storeSeq := by
  unfold Proc.wr; split <;> rfl
@[simp] theorem Proc.wr_acks (p : Proc) (r : GReg) (x : Word) : (p.wr r x).acks = p.acks := by
  unfold Proc.wr; split <;> rfl

/-! ## `Proc.raise` changes `vflags` -/

@[simp] theorem Proc.raise_tenant (p : Proc) (f : Flags) : (p.raise f).tenant = p.tenant := rfl
@[simp] theorem Proc.raise_net (p : Proc) (f : Flags) : (p.raise f).net = p.net := rfl
@[simp] theorem Proc.raise_desc (p : Proc) (f : Flags) : (p.raise f).desc = p.desc := rfl
@[simp] theorem Proc.raise_ldie (p : Proc) (f : Flags) : (p.raise f).ldie = p.ldie := rfl
@[simp] theorem Proc.raise_tile (p : Proc) (f : Flags) : (p.raise f).tile = p.tile := rfl
@[simp] theorem Proc.raise_slot (p : Proc) (f : Flags) : (p.raise f).slot = p.slot := rfl
@[simp] theorem Proc.raise_st (p : Proc) (f : Flags) : (p.raise f).st = p.st := rfl
@[simp] theorem Proc.raise_park (p : Proc) (f : Flags) : (p.raise f).park = p.park := rfl
@[simp] theorem Proc.raise_frozen (p : Proc) (f : Flags) : (p.raise f).frozen = p.frozen := rfl
@[simp] theorem Proc.raise_woken (p : Proc) (f : Flags) : (p.raise f).woken = p.woken := rfl
@[simp] theorem Proc.raise_pend (p : Proc) (f : Flags) : (p.raise f).pend = p.pend := rfl
@[simp] theorem Proc.raise_record (p : Proc) (f : Flags) : (p.raise f).record = p.record := rfl
@[simp] theorem Proc.raise_pc (p : Proc) (f : Flags) : (p.raise f).pc = p.pc := rfl
@[simp] theorem Proc.raise_g (p : Proc) (f : Flags) : (p.raise f).g = p.g := rfl
@[simp] theorem Proc.raise_priv (p : Proc) (f : Flags) : (p.raise f).priv = p.priv := rfl
@[simp] theorem Proc.raise_trap (p : Proc) (f : Flags) : (p.raise f).trap = p.trap := rfl
@[simp] theorem Proc.raise_eff (p : Proc) (f : Flags) : (p.raise f).eff = p.eff := rfl
@[simp] theorem Proc.raise_sigctl (p : Proc) (f : Flags) : (p.raise f).sigctl = p.sigctl := rfl
@[simp] theorem Proc.raise_sig (p : Proc) (f : Flags) : (p.raise f).sig = p.sig := rfl
@[simp] theorem Proc.raise_sigOld (p : Proc) (f : Flags) : (p.raise f).sigOld = p.sigOld := rfl
@[simp] theorem Proc.raise_ffe (p : Proc) (f : Flags) : (p.raise f).ffe = p.ffe := rfl
@[simp] theorem Proc.raise_xtab0 (p : Proc) (f : Flags) : (p.raise f).xtab0 = p.xtab0 := rfl
@[simp] theorem Proc.raise_xtab1 (p : Proc) (f : Flags) : (p.raise f).xtab1 = p.xtab1 := rfl
@[simp] theorem Proc.raise_srseed (p : Proc) (f : Flags) : (p.raise f).srseed = p.srseed := rfl
@[simp] theorem Proc.raise_encoreEn (p : Proc) (f : Flags) : (p.raise f).encoreEn = p.encoreEn := rfl
@[simp] theorem Proc.raise_replays (p : Proc) (f : Flags) : (p.raise f).replays = p.replays := rfl
@[simp] theorem Proc.raise_vbcnt (p : Proc) (f : Flags) : (p.raise f).vbcnt = p.vbcnt := rfl
@[simp] theorem Proc.raise_geom (p : Proc) (f : Flags) : (p.raise f).geom = p.geom := rfl
@[simp] theorem Proc.raise_rows (p : Proc) (f : Flags) : (p.raise f).rows = p.rows := rfl
@[simp] theorem Proc.raise_rowPoison (p : Proc) (f : Flags) : (p.raise f).rowPoison = p.rowPoison := rfl
@[simp] theorem Proc.raise_masks (p : Proc) (f : Flags) : (p.raise f).masks = p.masks := rfl
@[simp] theorem Proc.raise_acc (p : Proc) (f : Flags) : (p.raise f).acc = p.acc := rfl
@[simp] theorem Proc.raise_accPoison (p : Proc) (f : Flags) : (p.raise f).accPoison = p.accPoison := rfl
@[simp] theorem Proc.raise_latch (p : Proc) (f : Flags) : (p.raise f).latch = p.latch := rfl
@[simp] theorem Proc.raise_latchPoison (p : Proc) (f : Flags) : (p.raise f).latchPoison = p.latchPoison := rfl
@[simp] theorem Proc.raise_claim (p : Proc) (f : Flags) : (p.raise f).claim = p.claim := rfl
@[simp] theorem Proc.raise_rounds (p : Proc) (f : Flags) : (p.raise f).rounds = p.rounds := rfl
@[simp] theorem Proc.raise_ringWait (p : Proc) (f : Flags) : (p.raise f).ringWait = p.ringWait := rfl
@[simp] theorem Proc.raise_grant (p : Proc) (f : Flags) : (p.raise f).grant = p.grant := rfl
@[simp] theorem Proc.raise_queue (p : Proc) (f : Flags) : (p.raise f).queue = p.queue := rfl
@[simp] theorem Proc.raise_tasks (p : Proc) (f : Flags) : (p.raise f).tasks = p.tasks := rfl
@[simp] theorem Proc.raise_convoys (p : Proc) (f : Flags) : (p.raise f).convoys = p.convoys := rfl
@[simp] theorem Proc.raise_nextId (p : Proc) (f : Flags) : (p.raise f).nextId = p.nextId := rfl
@[simp] theorem Proc.raise_pending (p : Proc) (f : Flags) : (p.raise f).pending = p.pending := rfl
@[simp] theorem Proc.raise_streams (p : Proc) (f : Flags) : (p.raise f).streams = p.streams := rfl
@[simp] theorem Proc.raise_closing (p : Proc) (f : Flags) : (p.raise f).closing = p.closing := rfl
@[simp] theorem Proc.raise_cue (p : Proc) (f : Flags) : (p.raise f).cue = p.cue := rfl
@[simp] theorem Proc.raise_cueWait (p : Proc) (f : Flags) : (p.raise f).cueWait = p.cueWait := rfl
@[simp] theorem Proc.raise_ports (p : Proc) (f : Flags) : (p.raise f).ports = p.ports := rfl
@[simp] theorem Proc.raise_launches (p : Proc) (f : Flags) : (p.raise f).launches = p.launches := rfl
@[simp] theorem Proc.raise_queries (p : Proc) (f : Flags) : (p.raise f).queries = p.queries := rfl
@[simp] theorem Proc.raise_xq (p : Proc) (f : Flags) : (p.raise f).xq = p.xq := rfl
@[simp] theorem Proc.raise_triggers (p : Proc) (f : Flags) : (p.raise f).triggers = p.triggers := rfl
@[simp] theorem Proc.raise_coll (p : Proc) (f : Flags) : (p.raise f).coll = p.coll := rfl
@[simp] theorem Proc.raise_collIssued (p : Proc) (f : Flags) : (p.raise f).collIssued = p.collIssued := rfl
@[simp] theorem Proc.raise_colls (p : Proc) (f : Flags) : (p.raise f).colls = p.colls := rfl
@[simp] theorem Proc.raise_collFault (p : Proc) (f : Flags) : (p.raise f).collFault = p.collFault := rfl
@[simp] theorem Proc.raise_heldDigests (p : Proc) (f : Flags) : (p.raise f).heldDigests = p.heldDigests := rfl
@[simp] theorem Proc.raise_heldMarkers (p : Proc) (f : Flags) : (p.raise f).heldMarkers = p.heldMarkers := rfl
@[simp] theorem Proc.raise_heldChunks (p : Proc) (f : Flags) : (p.raise f).heldChunks = p.heldChunks := rfl
@[simp] theorem Proc.raise_resvUnits (p : Proc) (f : Flags) : (p.raise f).resvUnits = p.resvUnits := rfl
@[simp] theorem Proc.raise_resvNext (p : Proc) (f : Flags) : (p.raise f).resvNext = p.resvNext := rfl
@[simp] theorem Proc.raise_saved (p : Proc) (f : Flags) : (p.raise f).saved = p.saved := rfl
@[simp] theorem Proc.raise_ctxLost (p : Proc) (f : Flags) : (p.raise f).ctxLost = p.ctxLost := rfl
@[simp] theorem Proc.raise_savedEvents (p : Proc) (f : Flags) : (p.raise f).savedEvents = p.savedEvents := rfl
@[simp] theorem Proc.raise_kept (p : Proc) (f : Flags) : (p.raise f).kept = p.kept := rfl
@[simp] theorem Proc.raise_savePages (p : Proc) (f : Flags) : (p.raise f).savePages = p.savePages := rfl
@[simp] theorem Proc.raise_moved (p : Proc) (f : Flags) : (p.raise f).moved = p.moved := rfl
@[simp] theorem Proc.raise_movedEnds (p : Proc) (f : Flags) : (p.raise f).movedEnds = p.movedEnds := rfl
@[simp] theorem Proc.raise_storeSeq (p : Proc) (f : Flags) : (p.raise f).storeSeq = p.storeSeq := rfl
@[simp] theorem Proc.raise_acks (p : Proc) (f : Flags) : (p.raise f).acks = p.acks := rfl

end Sys2Proof.Machine
end

