-- ==== Sys2Proof/Laws/Maps.lean ====
section
/-!
SUPPORT. What the maps, sets and byte memories give back after an update, and that every update keeps the one form.
-/

namespace Sys2Proof.Machine

/-! ## Reading after an update -/

@[simp] theorem mget_mset_same {α : Type} (m : AMap α) (x : Nat) (v : α) : mget (mset m x v) x = some v := by
  induction m with
  | nil => simp [mset, mget]
  | cons c m ih => obtain ⟨k, w⟩ := c; simp only [mset]; split
                   · simp [mget]
                   · split <;> simp_all [mget]

theorem mget_mset {α : Type} (m : AMap α) (x y : Nat) (v : α) :
    mget (mset m x v) y = if y = x then some v else mget m y := by
  induction m with
  | nil => simp [mset, mget]
  | cons c m ih =>
    obtain ⟨k, w⟩ := c
    simp only [mset]
    split
    · simp [mget]
    · split
      · subst_vars; by_cases h : y = k <;> simp [mget, h]
      · simp only [mget, ih]; by_cases h : y = k <;> by_cases h' : y = x <;> simp_all

@[simp] theorem mget_mset_ne {α : Type} (m : AMap α) {x y : Nat} (v : α) (h : y ≠ x) :
    mget (mset m x v) y = mget m y := by simp [mget_mset, h]

theorem mget_mdel {α : Type} (m : AMap α) (x y : Nat) : mget (mdel m x) y = if y = x then none else mget m y := by
  induction m with
  | nil => simp [mdel, mget]
  | cons c m ih =>
    obtain ⟨k, w⟩ := c
    simp only [mdel]
    split
    · next hk => subst hk; rw [ih]; by_cases h : y = x <;> simp [mget, h]
    · simp only [mget, ih]; by_cases h : y = k <;> by_cases h' : y = x <;> simp_all

theorem mget_mmod {α : Type} (m : AMap α) (x y : Nat) (f : α → α) :
    mget (mmod m x f) y = if y = x then (mget m x).map f else mget m y := by
  unfold mmod
  split
  · next h => by_cases hy : y = x <;> simp_all
  · next v h => simp [mget_mset, h]

/-! ## Keys strictly rising -/

theorem mwf_cons {α : Type} {k : Nat} {v : α} {m : AMap α} :
    mwf ((k, v) :: m) = true ↔ mwf m = true ∧ ∀ c ∈ m.head?, k < c.1 := by
  cases m with
  | nil => simp [mwf]
  | cons c m => obtain ⟨l, w⟩ := c; simp [mwf, and_comm]

theorem mset_head {α : Type} (m : AMap α) (x : Nat) (v : α) :
    ∀ c ∈ (mset m x v).head?, c.1 = x ∨ ∃ d ∈ m.head?, c.1 = d.1 := by
  cases m with
  | nil => simp [mset]
  | cons c m => obtain ⟨k, w⟩ := c; simp only [mset]; split
                · simp
                · split <;> simp_all

theorem mset_wf {α : Type} (m : AMap α) (x : Nat) (v : α) (h : mwf m = true) : mwf (mset m x v) = true := by
  induction m with
  | nil => simp [mset, mwf]
  | cons c m ih =>
    obtain ⟨k, w⟩ := c
    simp only [mset]
    split
    · next hx => rw [mwf_cons]; exact ⟨h, by simpa using hx⟩
    · split
      · next hx => subst hx; rw [mwf_cons] at h ⊢; exact h
      · next h1 h2 =>
        rw [mwf_cons] at h ⊢
        refine ⟨ih h.1, fun c hc => ?_⟩
        rcases mset_head m x v c hc with e | ⟨d, hd, e⟩
        · omega
        · rw [e]; exact h.2 d hd

theorem mwf_tail {α : Type} {c : Nat × α} {m : AMap α} (h : mwf (c :: m) = true) : mwf m = true :=
  (mwf_cons.mp h).1

theorem mwf_lt {α : Type} {c d : Nat × α} {m : AMap α} (h : mwf (c :: m) = true) (hd : d ∈ m) : c.1 < d.1 := by
  induction m generalizing c with
  | nil => cases hd
  | cons e m ih =>
    have hce : c.1 < e.1 := (mwf_cons.mp h).2 e (by simp)
    rcases List.mem_cons.mp hd with rfl | hd
    · exact hce
    · exact Nat.lt_trans hce (ih (mwf_tail h) hd)

theorem mwf_of_pairs {α : Type} {m : AMap α} (h : m.Pairwise (fun c d => c.1 < d.1)) : mwf m = true := by
  induction m with
  | nil => rfl
  | cons c m ih =>
    obtain ⟨k, v⟩ := c
    rw [List.pairwise_cons] at h
    refine mwf_cons.mpr ⟨ih h.2, fun d hd => h.1 d ?_⟩
    exact List.mem_of_mem_head? hd

theorem mwf_pairs {α : Type} {m : AMap α} (h : mwf m = true) : m.Pairwise (fun c d => c.1 < d.1) := by
  induction m with
  | nil => exact .nil
  | cons c m ih => exact .cons (fun d hd => mwf_lt h hd) (ih (mwf_tail h))

theorem mdel_eq_filter {α : Type} (m : AMap α) (x : Nat) : mdel m x = m.filter (fun c => c.1 != x) := by
  induction m with
  | nil => rfl
  | cons c m ih =>
    obtain ⟨k, v⟩ := c
    simp only [mdel, ih]
    by_cases h : x = k
    · subst h; simp
    · simp [h, Ne.symm h]

theorem filter_wf {α : Type} {m : AMap α} (h : mwf m = true) (f : Nat × α → Bool) : mwf (m.filter f) = true :=
  mwf_of_pairs ((mwf_pairs h).filter f)

theorem mdel_wf {α : Type} (m : AMap α) (x : Nat) (h : mwf m = true) : mwf (mdel m x) = true := by
  rw [mdel_eq_filter]; exact filter_wf h _

/-! ## Byte memories -/

theorem memByte_memPut (m : Memory) (a c : Nat) (b : Byte) :
    memByte (memPut m a b) c = if c = a then b else memByte m c := by
  unfold memPut memByte
  split
  · rw [mget_mdel]; split <;> simp_all
  · rw [mget_mset]; split <;> simp_all

theorem memByte_memPutBytes (m : Memory) (a c : Nat) (bs : List Byte) :
    memByte (memPutBytes m a bs) c = if a ≤ c ∧ c < a + bs.length then bs.getD (c - a) 0 else memByte m c := by
  induction bs generalizing m a with
  | nil => simp only [memPutBytes, List.length_nil]; rw [if_neg (by omega)]
  | cons b bs ih =>
    simp only [memPutBytes, ih, memByte_memPut, List.length_cons]
    by_cases h : c = a
    · subst h
      rw [if_neg (by omega), if_pos rfl, if_pos (by omega)]; simp
    · by_cases h2 : a + 1 ≤ c ∧ c < a + 1 + bs.length
      · rw [if_pos h2, if_pos (by omega)]
        obtain ⟨n, hn⟩ : ∃ n, c - a = n + 1 := ⟨c - a - 1, by omega⟩
        rw [hn, show c - (a + 1) = n by omega]; simp
      · rw [if_neg h2, if_neg h, if_neg (by omega)]

@[simp] theorem memBytes_length (m : Memory) (a n : Nat) : (memBytes m a n).length = n := by
  induction n generalizing a with
  | zero => rfl
  | succ n ih => simp [memBytes, ih]

theorem mset_mem {α : Type} {m : AMap α} {x : Nat} {v : α} {c : Nat × α} (h : c ∈ mset m x v) : c = (x, v) ∨ c ∈ m := by
  induction m with
  | nil => simpa [mset] using h
  | cons d m ih =>
    obtain ⟨k, w⟩ := d
    simp only [mset] at h
    split at h
    · simpa using h
    · split at h
      · rcases List.mem_cons.mp h with h | h
        · exact .inl h
        · exact .inr (List.mem_cons_of_mem _ h)
      · rcases List.mem_cons.mp h with rfl | h
        · simp
        · rcases ih h with h | h
          · exact .inl h
          · exact .inr (by simp [h])

theorem memPut_wf (m : Memory) (a : Nat) (b : Byte) (h : m.wf = true) : (memPut m a b).wf = true := by
  simp only [Memory.wf, Bool.and_eq_true, List.all_eq_true, bne_iff_ne] at h ⊢
  unfold memPut
  split
  · refine ⟨mdel_wf m a h.1, fun c hc => ?_⟩
    rw [mdel_eq_filter] at hc
    exact h.2 c (List.mem_filter.mp hc).1
  · next hb =>
    refine ⟨mset_wf m a b h.1, fun c hc => ?_⟩
    rcases mset_mem hc with rfl | hc
    · exact hb
    · exact h.2 c hc

theorem memPutBytes_wf (m : Memory) (a : Nat) (bs : List Byte) (h : m.wf = true) : (memPutBytes m a bs).wf = true := by
  induction bs generalizing m a with
  | nil => exact h
  | cons b bs ih => exact ih _ _ (memPut_wf m a b h)

theorem filter_memwf {m : Memory} (h : m.wf = true) (f : Host.Cell → Bool) : Memory.wf (m.filter f) = true := by
  simp only [Memory.wf, Bool.and_eq_true, List.all_eq_true] at h ⊢
  exact ⟨filter_wf h.1 f, fun c hc => h.2 c (List.mem_filter.mp hc).1⟩

theorem memClear_wf (m : Memory) (a n : Nat) (h : m.wf = true) : (memClear m a n).wf = true := filter_memwf h _

theorem memSlice_wf (m : Memory) (a n : Nat) (h : m.wf = true) : (memSlice m a n).wf = true := filter_memwf h _

theorem reset_mem_wf : State.reset.mem.wf = true := rfl

/-! ## Parts of the state -/

@[simp] theorem State.proc?_setProc (s : State) (pid : Nat) (p : Proc) : (s.setProc pid p).proc? pid = some p := by
  simp [State.proc?, State.setProc]

theorem State.proc?_setProc_ne (s : State) {pid q : Nat} (p : Proc) (h : q ≠ pid) :
    (s.setProc pid p).proc? q = s.proc? q := by simp [State.proc?, State.setProc, h]

@[simp] theorem State.proc?_setCur (s : State) (p : Proc) : (s.setCur p).proc? s.cur = some p := by
  simp [State.setCur]

@[simp] theorem State.proc?_modTile (s : State) (k : Nat) (f : Tile → Tile) (q : Nat) :
    (s.modTile k f).proc? q = s.proc? q := rfl

@[simp] theorem State.tile_setTile (s : State) (k : Nat) (x : Tile) : (s.setTile k x).tile k = x := by
  simp [State.tile, State.setTile, mgetD]

theorem State.tile_setTile_ne (s : State) {k j : Nat} (x : Tile) (h : j ≠ k) : (s.setTile k x).tile j = s.tile j := by
  simp [State.tile, State.setTile, mgetD, h]

@[simp] theorem State.tile_modTile (s : State) (k : Nat) (f : Tile → Tile) : (s.modTile k f).tile k = f (s.tile k) := by
  simp [State.modTile]

@[simp] theorem State.tile_setProc (s : State) (pid : Nat) (p : Proc) (k : Nat) : (s.setProc pid p).tile k = s.tile k := rfl

@[simp] theorem State.tile_setCur (s : State) (p : Proc) (k : Nat) : (s.setCur p).tile k = s.tile k := rfl

/-- What a meaning of a word of the current process does. -/
theorem State.withCur_eq {s : State} {p : Proc} (h : s.proc? s.cur = some p) (f : Proc → State) :
    s.withCur f = .next (f p) := by simp [State.withCur, h]

theorem State.withCur_none {s : State} (h : s.proc? s.cur = none) (f : Proc → State) :
    s.withCur f = .fault .noProcess := by simp [State.withCur, h]

/-! ## General registers (R118) -/

@[simp] theorem Proc.rd_zero (p : Proc) : p.rd 0 = 0 := rfl

theorem Proc.rd_wr (p : Proc) (a r : GReg) (x : Word) :
    (p.wr a x).rd r = if r = a ∧ a ≠ 0 then x else p.rd r := by
  by_cases ha : a = 0
  · simp [Proc.wr, ha]
  · have e : p.wr a x = { p with g := p.g.setIfInBounds a.toNat x } := if_neg ha
    rw [e]; simp only [Proc.rd]
    by_cases hr : r = a
    · subst hr; rw [if_neg ha, if_pos ⟨rfl, ha⟩]; exact Vector.getElem_setIfInBounds_self _
    · have h : a.toNat ≠ r.toNat := fun h => hr (BitVec.eq_of_toNat_eq h.symm)
      rw [if_neg (c := r = a ∧ a ≠ 0) (fun c => hr c.1)]
      split
      · rfl
      · exact Vector.getElem_setIfInBounds_ne _ h

end Sys2Proof.Machine
end

