-- ==== Sys2Proof/Laws/Ops.lean ====
section
/-!
SUPPORT. What the shared operations do, each said once: sets, vectors and byte strings, choices, fault records, traps,
requests, device memory and rows of the vector register file.
-/

namespace Sys2Proof.Machine

/-! ## Sets and vectors by number -/

@[simp] theorem nsAdd_mem (s : NatSet) (x y : Nat) : y ∈ nsAdd s x ↔ y = x ∨ y ∈ s := by
  induction s with
  | nil => simp [nsAdd]
  | cons z s ih =>
    simp only [nsAdd]
    split
    · simp
    · split
      · next h => subst h; simp
      · simp only [List.mem_cons, ih, or_left_comm]

@[simp] theorem nsDel_mem (s : NatSet) (x y : Nat) : y ∈ nsDel s x ↔ y ∈ s ∧ y ≠ x := by simp [nsDel]

theorem nsPut_mem (s : NatSet) (x y : Nat) (b : Bool) : y ∈ nsPut s x b ↔ if y = x then b = true else y ∈ s := by
  cases b <;> by_cases h : y = x <;> simp [nsPut, h]

@[simp] theorem vget_vput {α : Type} {n : Nat} (v : Vector α n) (i : Nat) (x d : α) (h : i < n) :
    vget (vput v i x) i d = x := by
  simp only [vget, vput, Vector.getElem?_setIfInBounds_self_of_lt h, Option.getD_some]

theorem vget_vput_ne {α : Type} {n : Nat} (v : Vector α n) {i j : Nat} (x d : α) (h : i ≠ j) :
    vget (vput v i x) j d = vget v j d := by
  simp only [vget, vput, Vector.getElem?_setIfInBounds_ne h]

theorem vmod_eq {α : Type} {n : Nat} (v : Vector α n) (i : Nat) (f : α → α) (h : i < n) :
    vmod v i f = v.setIfInBounds i (f v[i]) := by
  unfold vmod; rw [Vector.getElem?_eq_getElem h]

theorem vget_vmod {α : Type} {n : Nat} (v : Vector α n) (i j : Nat) (f : α → α) (d : α) (h : j < n) :
    vget (vmod v i f) j d = if i = j then f (vget v j d) else vget v j d := by
  by_cases hi : i < n
  · rw [vmod_eq v i f hi]
    by_cases e : i = j
    · subst e; simp [vget, hi]
    · simp [vget, Vector.getElem?_setIfInBounds_ne e, e]
  · have : i ≠ j := by omega
    simp [vmod, Vector.getElem?_eq_none (Nat.le_of_not_lt hi), this]

/-! ## Choices -/

/-- A choice lies among its outcomes. -/
theorem State.pick_lt (s : State) {n : Nat} (h : 0 < n) : (s.pick n).1 < n := by
  unfold State.pick
  split
  · omega
  · split <;> exact Nat.mod_lt _ h

/-- A choice changes nothing but what later choices are drawn from. -/
theorem State.pick_frame (s : State) (n : Nat) :
    ∃ ks d, (s.pick n).2 = { s with picks := ks, draws := d } := by
  unfold State.pick
  split
  · exact ⟨s.picks, s.draws, rfl⟩
  · split
    · next ks _ => exact ⟨ks, s.draws, rfl⟩
    · exact ⟨s.picks, s.draws + 1, rfl⟩

/-! ## Fault records and traps (R395-R405) -/

/-- A record that joins the fault record of a tenant touches tenants and networks alone. -/
theorem State.enterToks_frame (s : State) (n : Nat) (l : List FaultTok) :
    ∃ ts ns, s.enterToks n l = { s with tenants := ts, nets := ns } := by
  unfold State.enterToks
  split
  · exact ⟨_, _, rfl⟩
  · split
    · exact ⟨_, s.nets, rfl⟩
    · split
      · exact ⟨_, _, rfl⟩
      · exact ⟨_, s.nets, rfl⟩

/-- A record that fits stands behind the tokens queued (R402, R403). -/
theorem State.enterToks_fits (s : State) (n : Nat) (l : List FaultTok) {t : Tenant} (h : mget s.tenants n = some t)
    (hr : t.reserve = []) (hl : t.faultq.length + l.length ≤ 4096) :
    s.enterToks n l = { s with tenants := mset s.tenants n { t with faultq := t.faultq ++ l } } := by
  simp [State.enterToks, h, hr, hl]

/-- A record after the first kept in the reserve is kept there as well (R403). -/
theorem State.enterToks_reserve (s : State) (n : Nat) (l : List FaultTok) {t : Tenant} (h : mget s.tenants n = some t)
    (hr : t.reserve ≠ []) :
    s.enterToks n l = { s with tenants := mset s.tenants n { t with reserve := t.reserve ++ [l] } } := by
  simp [State.enterToks, h, hr]

/-- A trap changes its process, and by its record tenants and networks; no other process. -/
theorem State.takeTrap_frame (s : State) (pid : Nat) (t : TrapInfo) :
    ∃ ps ts ns, s.takeTrap pid t = { s with procs := ps, tenants := ts, nets := ns }
      ∧ ∀ j, j ≠ pid → mget ps j = mget s.procs j := by
  unfold State.takeTrap
  split
  · exact ⟨s.procs, s.tenants, s.nets, rfl, fun _ _ => rfl⟩
  · simp only [State.enterRecord]
    obtain ⟨ts, ns, e⟩ := State.enterToks_frame (s.setProc pid _) _ _
    rw [e]
    exact ⟨_, ts, ns, rfl, fun j h => mget_mset_ne _ _ h⟩

/-! ## Requests (R297-R300, R427) -/

/-- A request sent waits in flight under a fresh number. -/
theorem State.sendReq_eq (s : State) (src : Source) (pa : Nat) (kind : ReqKind) (prio : Nat) :
    (s.sendReq src pa kind prio).1 = s.nextReq ∧
      { id := s.nextReq, src, pa, kind, prio, age := s.reqAge } ∈ (s.sendReq src pa kind prio).2.flight := by
  simp [State.sendReq]

/-- An access sent touches only requests in flight, remote requests and messages. -/
theorem State.sendTo_frame (s : State) (src : Source) (tenant : Nat) (place : Place) (kind : ReqKind) (prio : Nat) :
    ∃ fl rs vo nr ra, (s.sendTo src tenant place kind prio).2
      = { s with flight := fl, remotes := rs, vout := vo, nextReq := nr, reqAge := ra } := by
  cases place with
  | phys pa => exact ⟨_, s.remotes, s.vout, _, _, rfl⟩
  | remote pkg key off => exact ⟨s.flight, _, _, _, _, rfl⟩

/-! ## Device memory (R298, R302, R303) -/

/-- What a line request may touch: bytes, poison and latent errors of memory, and its servers. -/
def State.MemFrame (s u : State) : Prop :=
  ∃ m p e v, u = { s with mem := m, memPoison := p, memErrors := e, servers := v }

theorem State.MemFrame.refl (s : State) : s.MemFrame s := ⟨s.mem, s.memPoison, s.memErrors, s.servers, rfl⟩

theorem State.MemFrame.trans {s t u : State} (h : s.MemFrame t) (k : t.MemFrame u) : s.MemFrame u := by
  obtain ⟨_, _, _, _, rfl⟩ := h
  obtain ⟨_, _, _, _, rfl⟩ := k
  exact ⟨_, _, _, _, rfl⟩

theorem State.readHalf_frame (s : State) (h : Nat) : s.MemFrame (s.readHalf h) := by
  unfold State.readHalf
  split
  · exact .refl s
  · exact ⟨s.mem, s.memPoison, _, _, rfl⟩
  · exact ⟨_, _, _, _, rfl⟩

theorem State.readHalves_frame (s : State) (h n : Nat) : s.MemFrame (s.readHalves h n) := by
  induction n generalizing s h with
  | zero => exact .refl s
  | succ n ih => exact (s.readHalf_frame h).trans (ih _ _)

theorem State.writeHalves_frame (s : State) (pa n h k : Nat) : s.MemFrame (s.writeHalves pa n h k) := by
  induction k generalizing s h with
  | zero => exact .refl s
  | succ k ih =>
    refine .trans ?_ (ih _ _)
    split
    · exact ⟨s.mem, s.memPoison, _, s.servers, rfl⟩
    · exact s.readHalf_frame h

theorem State.physRead_frame (s : State) (pa n : Nat) : s.MemFrame (s.physRead pa n).1 := s.readHalves_frame _ _

theorem State.physWrite_frame (s : State) (pa : Nat) (b : List Byte) (p : List Bool) :
    s.MemFrame (s.physWrite pa b p) := by
  simp only [State.physWrite]
  split
  · exact .refl s
  · exact (s.writeHalves_frame _ _ _ _).trans ⟨_, _, _, _, rfl⟩

theorem State.memWrite_frame (s : State) (pa : Nat) (b : List Byte) (p : List Bool) :
    s.MemFrame (s.memWrite pa b p) :=
  .trans ⟨s.mem, s.memPoison, s.memErrors, _, rfl⟩ (State.physWrite_frame _ pa b p)

theorem State.enterLink_frame (s : State) (pa : Nat) (src : Source) : s.MemFrame (s.enterLink pa src) :=
  ⟨s.mem, s.memPoison, s.memErrors, _, rfl⟩

/-- A line request performed touches memory and its servers alone. -/
theorem State.perform_frame (s : State) (rid : Nat) (src : Source) (pa : Nat) (k : ReqKind) :
    s.MemFrame (s.perform rid src pa k).1 := by
  have hr := fun n => s.physRead_frame pa n
  cases k with
  | read n => exact hr n
  | write b p => exact s.memWrite_frame pa b p
  | fill b p whole => exact (s.memWrite_frame pa b p).trans ⟨_, _, _, _, rfl⟩
  | amo op n x expect =>
    simp only [State.perform]
    split
    · exact hr n
    · split
      · exact hr n
      · exact (hr n).trans (State.memWrite_frame _ _ _ _)
  | vamo op n flt x expect psn => exact (hr n).trans (State.memWrite_frame _ _ _ _)
  | linked n => exact (hr n).trans (State.enterLink_frame _ _ _)
  | cond b p =>
    simp only [State.perform]
    split
    · exact s.memWrite_frame pa b p
    · exact .refl s
  | sadd n flt x psn => exact (hr n).trans (State.memWrite_frame _ _ _ _)

theorem State.readHalf_wf (s : State) (h : Nat) (w : s.mem.wf = true) : (s.readHalf h).mem.wf = true := by
  unfold State.readHalf
  split
  · exact w
  · exact w
  · exact memClear_wf _ _ _ w

theorem State.readHalves_wf (s : State) (h n : Nat) (w : s.mem.wf = true) : (s.readHalves h n).mem.wf = true := by
  induction n generalizing s h with
  | zero => exact w
  | succ n ih => exact ih _ _ (s.readHalf_wf h w)

theorem State.writeHalves_wf (s : State) (pa n h k : Nat) (w : s.mem.wf = true) :
    (s.writeHalves pa n h k).mem.wf = true := by
  induction k generalizing s h with
  | zero => exact w
  | succ k ih =>
    refine ih _ _ ?_
    split
    · exact w
    · exact s.readHalf_wf h w

/-- Every line request keeps the canonical form of device memory. -/
theorem State.physWrite_wf (s : State) (pa : Nat) (b : List Byte) (p : List Bool) (w : s.mem.wf = true) :
    (s.physWrite pa b p).mem.wf = true := by
  simp only [State.physWrite]
  split
  · exact w
  · exact memPutBytes_wf _ _ _ (s.writeHalves_wf _ _ _ _ w)

theorem State.perform_wf (s : State) (rid : Nat) (src : Source) (pa : Nat) (k : ReqKind) (w : s.mem.wf = true) :
    (s.perform rid src pa k).1.mem.wf = true := by
  have hr := fun n => s.readHalves_wf (pa / 32) (halves pa n) w
  have hw : ∀ (u : State) b p, u.mem.wf = true → (u.memWrite pa b p).mem.wf = true :=
    fun u b p h => State.physWrite_wf _ pa b p h
  cases k with
  | read n => exact hr n
  | write b p => exact hw s b p w
  | fill b p whole => exact hw s b p w
  | amo op n x expect =>
    simp only [State.perform]
    split
    · exact hr n
    · split
      · exact hr n
      · exact hw _ _ _ (hr n)
  | vamo op n flt x expect psn => exact hw _ _ _ (hr n)
  | linked n => exact hr n
  | cond b p =>
    simp only [State.perform]
    split
    · exact hw s b p w
    · exact w
  | sadd n flt x psn => exact hw _ _ _ (hr n)

/-! ## Byte strings and fields of numbers -/

@[simp] theorem leBytes_length (n x : Nat) : (leBytes n x).length = n := by
  induction n generalizing x with
  | zero => rfl
  | succ n ih => simp [leBytes, ih]

theorem leNat_leBytes (n x : Nat) : leNat (leBytes n x) = x % 2 ^ (8 * n) := by
  induction n generalizing x with
  | zero => simp [leBytes, leNat, Nat.mod_one]
  | succ n ih =>
    simp only [leBytes, leNat, ih, BitVec.toNat_ofNat]
    rw [show 8 * (n + 1) = 8 + 8 * n by omega, Nat.pow_add, Nat.mod_mul]

/-- A number with a field replaced, by its parts. -/
theorem putField_eq (x lo w v : Nat) :
    putField x lo w v = 2 ^ lo * (2 ^ w * (x / 2 ^ lo / 2 ^ w) + v % 2 ^ w) + x % 2 ^ lo := by
  unfold putField
  have h1 := Nat.div_add_mod x (2 ^ lo)
  have h2 := Nat.div_add_mod (x / 2 ^ lo) (2 ^ w)
  generalize x / 2 ^ lo / 2 ^ w = c at *
  generalize x / 2 ^ lo % 2 ^ w = d at *
  generalize v % 2 ^ w = e at *
  rw [← h2, Nat.mul_add] at h1
  rw [Nat.mul_add, Nat.mul_comm d, Nat.mul_comm e]
  omega

/-- Bits of a number with a field replaced. -/
theorem putField_testBit (x lo w v i : Nat) :
    (putField x lo w v).testBit i = if lo ≤ i ∧ i < lo + w then v.testBit (i - lo) else x.testBit i := by
  rw [putField_eq, Nat.testBit_two_pow_mul_add _ (Nat.mod_lt _ (Nat.two_pow_pos lo))]
  by_cases h : i < lo
  · rw [if_pos h, if_neg (by omega), Nat.testBit_mod_two_pow]; simp [h]
  · rw [if_neg h, Nat.testBit_two_pow_mul_add _ (Nat.mod_lt _ (Nat.two_pow_pos w))]
    by_cases k : i - lo < w
    · rw [if_pos k, if_pos (by omega), Nat.testBit_mod_two_pow]; simp [k]
    · rw [if_neg k, if_neg (by omega), Nat.testBit_div_two_pow, Nat.testBit_div_two_pow]
      congr 1; omega

/-! ## Rows of the vector register file (R183-R185) -/

/-- A map of rows after an entry is set, zero not listed. -/
theorem mput0_getD {w : Nat} (m : AMap (BitVec w)) (k j : Nat) (x : BitVec w) :
    mgetD (mput0 m k x) j 0 = if j = k then x else mgetD m j 0 := by
  unfold mput0 mgetD
  split
  · rw [mget_mdel]; split <;> simp_all
  · rw [mget_mset]; split <;> simp_all

/-- A row after bytes of a row are written: bit by bit. -/
theorem Proc.putRow_bits (p : Proc) (row off n x : Nat) (psn : Bool) (r i : Nat) (hi : i < 4096) :
    (mgetD (p.putRow row off n x psn).rows r 0).getLsbD i
      = if r = row ∧ 8 * off ≤ i ∧ i < 8 * off + 8 * n then x.testBit (i - 8 * off) else (mgetD p.rows r 0).getLsbD i := by
  have e : (p.putRow row off n x psn).rows = mput0 p.rows row _ := rfl
  rw [e, mput0_getD]
  by_cases h : r = row
  · subst h
    rw [if_pos rfl, BitVec.getLsbD_ofNat, putField_testBit]
    by_cases k : 8 * off ≤ i ∧ i < 8 * off + 8 * n
    · simp [k, hi]
    · rw [if_neg k, if_neg (fun c => k c.2)]; simp [hi]; rfl
  · rw [if_neg h, if_neg (fun c => h c.1)]

/-- The bytes of a row just written. -/
theorem Proc.rowBytes_putRow (p : Proc) (row off n x : Nat) (psn : Bool) (h : off + n ≤ 512) :
    (p.putRow row off n x psn).rowBytes row off n = x % 2 ^ (8 * n) := by
  apply Nat.eq_of_testBit_eq
  intro i
  simp only [Proc.rowBytes, Nat.testBit_mod_two_pow, Nat.testBit_div_two_pow]
  by_cases k : i < 8 * n
  · have := p.putRow_bits row off n x psn row (i + 8 * off) (by omega)
    rw [if_pos ⟨rfl, by omega, by omega⟩, Nat.add_sub_cancel] at this
    simp only [BitVec.getLsbD] at this
    simp only [k, decide_true, Bool.true_and]; exact this
  · simp [k]

/-- Bytes of rows apart from those written stay. -/
theorem Proc.rowBytes_putRow_ne (p : Proc) (row off n x : Nat) (psn : Bool) (r o m : Nat) (hm : o + m ≤ 512)
    (h : r ≠ row ∨ o + m ≤ off ∨ off + n ≤ o) : (p.putRow row off n x psn).rowBytes r o m = p.rowBytes r o m := by
  apply Nat.eq_of_testBit_eq
  intro i
  simp only [Proc.rowBytes, Nat.testBit_mod_two_pow, Nat.testBit_div_two_pow]
  by_cases k : i < 8 * m
  · have := p.putRow_bits row off n x psn r (i + 8 * o) (by omega)
    rw [if_neg (by omega)] at this
    simp only [BitVec.getLsbD] at this
    simp only [k, decide_true, Bool.true_and]; exact this
  · simp [k]

end Sys2Proof.Machine
end

