-- ==== Sys2Proof/Tests/Slice0.lean ====
section
/-!
SUPPORT. Tests: ill-formed terms, words decoded, one small step each, and for every statement of
`Certificates/Slice0/Obligations.lean` with hypotheses a state and operands that meet them. Expected values come from
the tables and rules of the spec, or are worked out from them by hand.
-/

set_option Elab.async false

open Sys2Proof Sys2Proof.Machine

/-! ## Small states -/

/-- The placed process with registers set. -/
def Tests.proc (r : List (Nat × Word)) : Proc := { placeProc with g := r.foldl (fun g x => g.setIfInBounds x.1 x.2) placeProc.g }

/-- A running network of one process, with its tenant and its tile. -/
def Tests.one (p : Proc) : State :=
  { State.reset with
    ready := true, procs := [(0, p)], nets := [(0, placeNet)], tenants := [(0, placeTenant)], tiles := [(0, placeTile)] }

/-- The same with the tile changed. -/
def Tests.tiled (p : Proc) (t : Tile) : State := { Tests.one p with tiles := [(0, t)] }

/-- A register of the process after a word. -/
def Tests.reg (r : Res) (n : Nat) : Option Word := match r with
  | .next t => (t.proc? 0).map (fun p => p.rd (BitVec.ofNat 5 n))
  | _ => none

/-- A word of one state of registers, and the register it leaves. -/
def Tests.run (i : Instr) (r : List (Nat × Word)) (n : Nat) : Option Word := Tests.reg (exec i (Tests.one (Tests.proc r))) n

/-- What the process is after a word. -/
def Tests.after (α : Type) (r : Res) (f : Proc → α) : Option α := match r with
  | .next t => (t.proc? 0).map f
  | _ => none

/-- The cause a word has trapped with. -/
def Tests.cause (r : Res) : Option Word := Tests.after Word r (fun p => if p.st = .trapped then p.trap.tcause else 0)

/-- An outcome is a next state. -/
def Tests.goes : Res → Bool
  | .next _ => true
  | _ => false

/-- A header of class EX under k0. -/
def Tests.ex (et : ETy) : VHdr := { cls := .ex, km := 0, kn := false, dt := false, ch := false, et }

/-- A reply to a read. -/
def Tests.reply (id : Nat) (b : List Byte) : Reply :=
  { id, src := .proc 0, bytes := b, poison := List.replicate b.length false, cause := none, ok := true, flags := Flags.none }

/-- A parked process. -/
def Tests.parked (p : Proc) (r : ParkReason) (i : Instr) : Proc :=
  { p with st := .parked r, park := some { reason := r, instr := i, sigAfter := p.sig } }

/-! ## Ill-formed terms (R56, R65, R68, R144, R163, R183, R205-R231, R260, R276, R281, R286, R320, R321, R340) -/

theorem test_illformed_scalar : (∀ i ∈ [Instr.msetl 1 1 2, .msetl 1 2 1, .msetl 1 2 2, .sendc 1 0 0, .sendc 1 0 128, .vconf 1 7 0,
    .vconf 1 0 9, .sstep 0, .ctlr 1 0x021, .ctlr 1 0x028, .ctlw 1 0x023, .ctlw 1 0x038], i.wf = false)
  ∧ ∀ i ∈ [Instr.msetl 0 0 0, .msetl 0 0 5, .sendc 1 0 127, .vconf 1 6 8], i.wf = true := by decide

theorem test_illformed_header : (∀ h ∈ [{ Tests.ex .i8 with km := 24 }, { Tests.ex .i8 with kn := true }, { Tests.ex .i8 with cls := .tp },
    Tests.ex .f32, Tests.ex .mx4, Tests.ex .w56], (Instr.vadd h 1 2 3).wf = false)
  ∧ (∀ h ∈ [Tests.ex .i8, Tests.ex .e4m3, Tests.ex .mx4, { Tests.ex .f32 with cls := .tp }], (Instr.vfadd h 1 2 3).wf = false)
  ∧ (∀ h ∈ [{ Tests.ex .f32 with cls := .tp }, Tests.ex .u8], (Instr.vfrcp h 1 2).wf = false ∧ (Instr.vfmin h 1 2 3).wf = false)
  ∧ (Instr.vfma { Tests.ex .f32 with cls := .lg } 1 2 3 4).wf = true ∧ (Instr.vadd { Tests.ex .i8 with km := 23, kn := true } 1 2 3).wf = true := by
  decide

theorem test_illformed_convert : ∀ i ∈ [Instr.vcvt (Tests.ex .f32) 1 2 .mx4 false .rne, .vcvt (Tests.ex .mx4) 1 2 .f32 false .rne,
    .vcvt (Tests.ex .f32) 1 2 .i32 true .rne, .vcvt (Tests.ex .f32) 1 2 .f16 false .rz, .vcvtx (Tests.ex .f32) 1 2, .vmxup (Tests.ex .i8) 1 2 .rne,
    .vmxpk (Tests.ex .f32) 1 2 .f32 .rne, .vmxpk (Tests.ex .mx4) 1 2 .i32 .rne], i.wf = false := by decide

theorem test_illformed_mask : ∀ i ∈ [Instr.vcmp (Tests.ex .i8) 1 2 3 .un, .vcmp (Tests.ex .i8) 24 2 3 .eq, .vfcmp (Tests.ex .i8) 1 2 3 .eq,
    .vwhile (Tests.ex .i8) 24 1 2 true, .kand (Tests.ex .i8) 1 24 2, .kand (Tests.ex .i8) 1 2 24, .knot (Tests.ex .i8) 1 31, .kpop (Tests.ex .i8) 1 24,
    .vmxv (Tests.ex .i8) 1 2, .vpsn (Tests.ex .i8) 24 1, .vpclr (Tests.ex .i8) 24], i.wf = false := by decide

theorem test_illformed_move : ∀ i ∈ [Instr.vmov (Tests.ex .w56) 1 2, .vbcast (Tests.ex .mx4) 1 2, .vbcastb (Tests.ex .i8) 1 2 .i8 11,
    .vbcastb (Tests.ex .f32) 1 2 .f16 0, .viota (Tests.ex .f32) 1 false, .vext false .mx4 1 2 3, .vins false .mx4 1 2 3, .vrsum (Tests.ex .f32) 1 2,
    .vfrsum (Tests.ex .i32) 1 2, .vscan (Tests.ex .f32) 1 2 .sum, .vfscan (Tests.ex .i8) 1 2 .sum], i.wf = false := by decide

theorem test_illformed_memory : ∀ i ∈ [Instr.vld (Tests.ex .w56) .relaxed 1 2 0, .vamo (Tests.ex .i8) .relaxed .add .w32 true 1 2 3 4,
    .vamo (Tests.ex .i32) .relaxed .cas .w32 false 0 2 3 4, .vamo (Tests.ex .i32) .relaxed .add .w32 false 1 2 3 4,
    .vamo (Tests.ex .f32) .relaxed .xor .w32 true 1 2 3 4, .vldgl (Tests.ex .mx4) .relaxed .w32 1 2 3, .vsadd (Tests.ex .i8) .relaxed .w32 1 2 3,
    .mopa (Tests.ex .f32) 0 1 0, .mopa { Tests.ex .i8 with cls := .tp } 0 1 0, .mread (Tests.ex .i32) 0 1 0 .rz, .mread (Tests.ex .f16) 0 1 0 .rne,
    .mwrite (Tests.ex .i8) 0 1 0, .vsend (Tests.ex .i8) 24 0 0, .vrecv (Tests.ex .i8) 24 0, .vsend (Tests.ex .mx4) 1 0 0], i.wf = false := by decide

theorem test_illformed_unit : ∀ i ∈ [Instr.convoyStart 384, .serverAccess 256, .walk 4, .boxOfficeQuery 32, .portDown 36, .netCreate 66],
    i.wf = false := by decide

/-! ## Words of the encodings (R54-R68) -/

/-- MAJ in bits 31-26, then a, b, c of five bits each, ac of two and fn of nine (R54): one word of each scalar family. -/
theorem test_decode_scalar : ∀ x ∈ [(0x04211000, Instr.add 1 1 2), (0x0842FFFF, .addi 2 2 0xFFFF), (0x28A71800, .mul 5 7 3),
    (0x2C853403, .fma .lg 4 5 6), (0x2CC7004C, .fcvtfi .rz 6 7), (0x30434008, .ld .h .relaxed 2 3 8), (0x38A30010, .st .b .relaxed 5 3 0x10),
    (0x6C63FFFC, .jalr 3 3 0xFFFC), (0x8C64007F, .sendc 3 2 0x7F), (0xA4000010, .vfetch 0x10), (0xAC000001, .fenceSv), (0xC0020003, .sconf 2 3),
    (0xE0040002, .evclr 4), (0xF4021801, .xpost 2 3), (0xF0A00003, .rdcue 5), (0x00000001, .sysc), (0xF8E00022, .ctlrVflags 7)],
    decodeTableWord 32 x.1 = some x.2 := by decide +kernel

/-- Format V (R65-R68), the first word being R68's own example. -/
theorem test_decode_vector : ∀ x ∈ [(0x3345686429800000,
      Instr.vfma { cls := .tp, km := 2, kn := true, dt := false, ch := true, et := .f32 } 3 4 5 6),
    (0x100008A248000000, .vadd (Tests.ex .i32) 5 2 9), (0x5000282200000020, .vcvt (Tests.ex .f32) 1 2 .i32 false .rne),
    (0x6300006110000000, .kand (Tests.ex .i8) 3 1 2), (0x730024A220000000, .vgathr (Tests.ex .bf16) 5 2 4),
    (0x8000088600000000, .vrsum (Tests.ex .i32) 4 6), (0x9000284048000000, .vld (Tests.ex .f32) .relaxed 2 9 0),
    (0xC100204308000000, .mopa (Tests.ex .f16) 2 3 1), (0x0100000000000000, .vstop)],
    decodeTableWord 64 x.1 = some x.2 := by decide +kernel

/-- Unassigned majors, and fields that must be zero. -/
theorem test_decode_refuses : (∀ w ∈ [0x00000000, 0xFFFFFFFF, 0x48000000, 0x04211200], decodeTableWord 32 w = none)
  ∧ ∀ w ∈ [0, 0xF000000000000000, 0x10C008A248000000, 0x100008A248400000], decodeTableWord 64 w = none := by decide +kernel

theorem witness_RoundTrip : (Instr.add 1 1 2).wf = true ∧ encode (.add 1 1 2) ≠ .event ∧ (Instr.vadd (Tests.ex .i32) 5 2 9).wf = true
  ∧ encode (.vadd (Tests.ex .i32) 5 2 9) ≠ .event := by decide +kernel

theorem witness_OneMeaning : decodeWords true (.scalar 0x04211000) = .ok (.add 1 1 2) ∧ decodeWords false (.vector 0x0100000000000000) = .ok .vstop :=
  ⟨rfl, rfl⟩

/-! ## The turn of a tile, traps, memory -/

/-- A placed word, with its process changed. -/
def Tests.placed (w : Nat) (f : Proc → Proc) : State :=
  let s := State.reset.withFetchWord 32 w
  { s with procs := s.procs.map (fun x => (x.1, f x.2)) }

/-- The process whose word waits for nothing more. -/
def Tests.wakes (p : Proc) : Proc :=
  { p with woken := true, park := some { reason := .memoryReply, instr := .ld .d .relaxed 1 2 0, sigAfter := p.sig } }

/-- A process whose block, past its landing, ends with another CRC than its SIG wants. -/
def Tests.checked (p : Proc) : Proc := { p with sigctl := true, sig := { p.sig with opened := true, landing := false, want := 1 } }

theorem witness_StepRunsWord :
    (∀ f ∈ [id, Tests.wakes, fun p : Proc => { p with sigctl := true }, fun p => { p with pending := [(2, 0)] }, Tests.checked],
      let s := Tests.placed 0x04211000 f
      (s.inSlot 0 ((s.tile 0).cycle % 8)).isSome = true ∧ s.agenda = [.issue 0]
        ∧ s.powered = true ∧ s.memErrors = [] ∧ (s.tile 0).denied = []
        ∧ ∀ x ∈ s.procs, x.2.st = .ready ∧ s.netRuns x.2 = true ∧ x.2.frozen = false ∧ (s.tile x.2.tile).hasFailed = false)
    ∧ (placeTile.leafOf 0x0008000000100000 = none ∧ canonDev 0x0008000000100000 = true ∧ 0x0008000000100000 % 4 = 0)
    ∧ (let s := Tests.placed 0x04211000 id
      placeProc.pc.toNat % 4 = 0 ∧ inDevice placeProc.pc = true ∧ canonDev placeProc.pc = true
        ∧ tlbFind (s.tile 0).tlb placeProc.pc.toNat = some (.page 4096 true false true (.phys 0))
        ∧ s.entryAt 0 = some (leNat (memBytes s.mem 0 8)) ∧ leNat (memBytes s.mem 0 4) = 0x04211000)
    ∧ (placeProc.sig.landing = true ∧ isSigWord 0x04211000 = false ∧ isSigWord 0x70000000 = true)
    ∧ (decodeScalar false 0x04211000).toOption = some (.add 1 1 2) ∧ (decodeScalar false 0x48000000).toOption = none
    ∧ ({ placeProc with pending := [(2, 0)] }.touchesPending (.add 1 1 2) = true ∧ placeProc.touchesPending (.add 1 1 2) = false)
    ∧ (placeProc.sig.word (.add 1 1 2) 0x04211000 placeAddr).2 = true
    ∧ ((Tests.checked placeProc).sig.word (.beq 0 0 1) 0 placeAddr).2 = false := by
  decide +kernel

/-- The placed word runs: 3 + 2 into g1, the next word, and the tile's next cycle. -/
theorem test_step_add : (match step (Tests.placed 0x04211000 (fun p => { p with g := p.g.set 1 3 |>.set 2 2 })) with
    | .next t => ((t.proc? 0).map (fun p => (p.rd 1, p.pc - placeAddr)), (t.tile 0).cycle)
    | _ => (none, 0)) = (some (5, 4), 1) := by decide +kernel

/-- R416: the first word of a block under checking must be a SIG. -/
theorem test_step_landing : Tests.cause (step (Tests.placed 0x04211000 (fun p => { p with sigctl := true }))) = some 0x11 := by
  decide +kernel

/-- R113, R190: a word that reads a pending register parks. -/
theorem test_step_pending : Tests.after PState (step (Tests.placed 0x04211000 (fun p => { p with pending := [(2, 0)] }))) (·.st)
  = some (.parked .vectorDrain) := by decide +kernel

theorem witness_TakeTrap : (Tests.one placeProc).proc? 0 = some placeProc ∧ mget (Tests.one placeProc).tenants placeProc.tenant = some placeTenant
  ∧ placeTenant.reserve = [] ∧ placeTenant.faultq.length + 6 ≤ 4096 ∧ 7 < 8 := by decide +kernel

theorem witness_MemoryReadWrite : State.reset.memErrors = [] ∧ ([false, true] : List Bool).length = ([1, 2] : List Byte).length
  ∧ State.reset.mem.wf = true := by decide

/-- R302: two bytes over the edge of a word, the first of them poisoned. -/
theorem test_memory_write : let u := State.reset.memWrite 7 [0xAB, 0xCD] [true, false]
  memByte u.mem 6 = 0 ∧ memByte u.mem 7 = 0xAB ∧ memByte u.mem 8 = 0xCD ∧ memByte u.mem 9 = 0 ∧ u.memPoison = [0] := by decide +kernel

/-- R239: the last byte of scratchpad is byte 7 of word 7 of row 1023 of bank 7 of slice 3. -/
theorem test_scratchpad_address : (spSlice (2 ^ 21 - 1), spBank (2 ^ 21 - 1), spRow (2 ^ 21 - 1), spWord (2 ^ 21 - 1)) = (3, 7, 1023, 7)
  ∧ (spSlice 64, spBank 64, spRow 64) = (1, 0, 0) ∧ (spSlice 256, spBank 256, spRow 256) = (0, 1, 0) := by decide

theorem witness_FusesNeverShrink : Tests.goes (step (Tests.placed 0x04211000 id)) = true := by decide +kernel

theorem witness_MemoryStaysCanonical : let s := Tests.placed 0x04211000 id
  Tests.goes (step s) = true ∧ s.mem.wf = true := by decide +kernel

/-! ## Scalar words -/

theorem witness_RegisterWords : (Tests.one placeProc).proc? (Tests.one placeProc).cur = some placeProc ∧ (1 : GReg) ≠ 0 ∧ (2 : GReg) ≠ 1 := by
  decide +kernel

theorem witness_ImmediateWords : (Tests.one (Tests.proc [(1, 5)])).proc? 0 = some (Tests.proc [(1, 5)]) ∧ (Tests.one (Tests.proc [(1, 5)])).cur = 0
  ∧ 47 / 16 ≠ (3 : BitVec 2).toNat := by decide +kernel

theorem test_add_sub : Tests.run (.add 1 2 3) [(2, 0xFFFFFFFFFFFFFFFF), (3, 2)] 1 = some 1
  ∧ Tests.run (.sub 1 2 3) [(2, 1), (3, 2)] 1 = some 0xFFFFFFFFFFFFFFFF ∧ Tests.run (.add 0 2 2) [(2, 7)] 0 = some 0 := by decide +kernel

theorem test_logic : Tests.run (.andn 1 2 3) [(2, 0xF0F), (3, 0x00F)] 1 = some 0xF00
  ∧ Tests.run (.orn 1 2 3) [(2, 1), (3, 0xFFFFFFFFFFFFFFF0)] 1 = some 0xF ∧ Tests.run (.xor 1 2 2) [(2, 9)] 1 = some 0
  ∧ Tests.run (.and 1 2 3) [(2, 6), (3, 3)] 1 = some 2 ∧ Tests.run (.or 1 2 3) [(2, 6), (3, 3)] 1 = some 7 := by decide +kernel

theorem test_shift : Tests.run (.sll 1 2 3) [(2, 1), (3, 65)] 1 = some 2 ∧ Tests.run (.srl 1 2 3) [(2, 0x8000000000000000), (3, 63)] 1 = some 1
  ∧ Tests.run (.sra 1 2 3) [(2, 0x8000000000000000), (3, 63)] 1 = some 0xFFFFFFFFFFFFFFFF
  ∧ Tests.run (.rol 1 2 3) [(2, 0x8000000000000001), (3, 1)] 1 = some 3
  ∧ Tests.run (.ror 1 2 3) [(2, 0x8000000000000001), (3, 1)] 1 = some 0xC000000000000000 := by decide +kernel

theorem test_compare : Tests.run (.slt 1 2 3) [(2, 0xFFFFFFFFFFFFFFFF), (3, 0)] 1 = some 1 ∧ Tests.run (.sltu 1 2 3) [(2, 0xFFFFFFFFFFFFFFFF), (3, 0)] 1 = some 0
  ∧ Tests.run (.min 1 2 3) [(2, 0xFFFFFFFFFFFFFFFF), (3, 0)] 1 = some 0xFFFFFFFFFFFFFFFF ∧ Tests.run (.minu 1 2 3) [(2, 0xFFFFFFFFFFFFFFFF), (3, 0)] 1 = some 0
  ∧ Tests.run (.max 1 2 3) [(2, 0xFFFFFFFFFFFFFFFF), (3, 0)] 1 = some 0
  ∧ Tests.run (.maxu 1 2 3) [(2, 0xFFFFFFFFFFFFFFFF), (3, 0)] 1 = some 0xFFFFFFFFFFFFFFFF := by decide +kernel

theorem test_bits : Tests.run (.clz 1 2) [(2, 0)] 1 = some 64 ∧ Tests.run (.clz 1 2) [(2, 1)] 1 = some 63 ∧ Tests.run (.ctz 1 2) [(2, 0)] 1 = some 64
  ∧ Tests.run (.ctz 1 2) [(2, 8)] 1 = some 3 ∧ Tests.run (.popc 1 2) [(2, 0xF00000000000000F)] 1 = some 8
  ∧ Tests.run (.brev 1 2) [(2, 3)] 1 = some 0xC000000000000000 ∧ Tests.run (.bswap 1 2) [(2, 0x0102030405060708)] 1 = some 0x0807060504030201 := by
  decide +kernel

theorem test_extend : Tests.run (.sextb 1 2) [(2, 0x180)] 1 = some 0xFFFFFFFFFFFFFF80 ∧ Tests.run (.sexth 1 2) [(2, 0x17FFF)] 1 = some 0x7FFF
  ∧ Tests.run (.sextw 1 2) [(2, 0x80000000)] 1 = some 0xFFFFFFFF80000000 ∧ Tests.run (.zextw 1 2) [(2, 0xFFFFFFFF80000000)] 1 = some 0x80000000 := by
  decide +kernel

theorem test_multiply : Tests.run (.mulh 1 2 3) [(2, 0xFFFFFFFFFFFFFFFF), (3, 2)] 1 = some 0xFFFFFFFFFFFFFFFF
  ∧ Tests.run (.mulhu 1 2 3) [(2, 0xFFFFFFFFFFFFFFFF), (3, 2)] 1 = some 1
  ∧ Tests.run (.mul 1 2 3) [(2, 0xFFFFFFFFFFFFFFFF), (3, 2)] 1 = some 0xFFFFFFFFFFFFFFFE := by decide +kernel

/-- R124: the quotient rounds toward zero, a zero divisor gives all ones, and -2^63 / -1 is -2^63. -/
theorem test_divide : Tests.run (.div 1 2 3) [(2, 0xFFFFFFFFFFFFFFF9), (3, 2)] 1 = some 0xFFFFFFFFFFFFFFFD
  ∧ Tests.run (.div 1 2 3) [(2, 7)] 1 = some 0xFFFFFFFFFFFFFFFF
  ∧ Tests.run (.div 1 2 3) [(2, 0x8000000000000000), (3, 0xFFFFFFFFFFFFFFFF)] 1 = some 0x8000000000000000
  ∧ Tests.run (.divu 1 2 3) [(2, 7)] 1 = some 0xFFFFFFFFFFFFFFFF := by decide +kernel

theorem test_remainder : Tests.run (.rem 1 2 3) [(2, 0xFFFFFFFFFFFFFFF9), (3, 2)] 1 = some 0xFFFFFFFFFFFFFFFF ∧ Tests.run (.rem 1 2 3) [(2, 7)] 1 = some 7
  ∧ Tests.run (.rem 1 2 3) [(2, 0x8000000000000000), (3, 0xFFFFFFFFFFFFFFFF)] 1 = some 0 ∧ Tests.run (.remu 1 2 3) [(2, 7), (3, 4)] 1 = some 3 := by
  decide +kernel

theorem witness_MultiplyDivide : (Tests.one (Tests.proc [(2, 0x8000000000000000), (3, 0xFFFFFFFFFFFFFFFF)])).proc? 0
      = some (Tests.proc [(2, 0x8000000000000000), (3, 0xFFFFFFFFFFFFFFFF)])
  ∧ (Tests.proc [(3, 0xFFFFFFFFFFFFFFFF)]).rd 3 = 0xFFFFFFFFFFFFFFFF ∧ (Tests.proc []).rd 3 = 0 ∧ (Tests.proc [(3, 2)]).rd 3 ≠ 0 := by decide +kernel

theorem test_immediate : Tests.run (.addi 1 2 0xFFFF) [(2, 0)] 1 = some 0xFFFFFFFFFFFFFFFF ∧ Tests.run (.ori 1 2 0xFFFF) [(2, 0)] 1 = some 0xFFFF
  ∧ Tests.run (.andi 1 2 0xFFFF) [(2, 0x18000)] 1 = some 0x8000 ∧ Tests.run (.xori 1 2 0xFFFF) [(2, 0x1FFFF)] 1 = some 0x10000
  ∧ Tests.run (.slti 1 2 0xFFFF) [(2, 0)] 1 = some 0 ∧ Tests.run (.sltiu 1 2 0xFFFF) [(2, 0)] 1 = some 1
  ∧ Tests.run (.lih 1 3 0xABCD) [(1, 5)] 1 = some 0xABCD000000000005 := by decide +kernel

theorem test_immediate_shift : Tests.run (.slli 1 2 63) [(2, 3)] 1 = some 0x8000000000000000 ∧ Tests.run (.srli 1 2 63) [(2, 0x8000000000000000)] 1 = some 1
  ∧ Tests.run (.srai 1 2 63) [(2, 0x8000000000000000)] 1 = some 0xFFFFFFFFFFFFFFFF := by decide +kernel

/-- The displacement a branch or jump has taken, in bytes. -/
def Tests.leaps (i : Instr) (r : List (Nat × Word)) : Option Word := Tests.after Word (exec i (Tests.one (Tests.proc r))) (fun p => p.pc - placeAddr)

theorem witness_BranchWords : (Tests.one (Tests.proc [(1, 5)])).proc? 0 = some (Tests.proc [(1, 5)]) := by decide +kernel

theorem test_branch : Tests.leaps (.beq 1 2 0xFFFF) [] = some 0xFFFFFFFFFFFFFFFC ∧ Tests.leaps (.bne 1 2 5) [] = some 4
  ∧ Tests.leaps (.blt 1 2 5) [(1, 0xFFFFFFFFFFFFFFFF)] = some 20 ∧ Tests.leaps (.bltu 1 2 5) [(1, 0xFFFFFFFFFFFFFFFF)] = some 4
  ∧ Tests.leaps (.bge 1 2 5) [] = some 20 ∧ Tests.leaps (.bgeu 1 2 5) [(2, 1)] = some 4 := by decide +kernel

theorem witness_JumpAndLink : (Tests.one placeProc).proc? 0 = some placeProc := by decide +kernel

theorem test_jump : Tests.leaps (.jal 1 0x1FFFFF) [] = some 0xFFFFFFFFFFFFFFFC ∧ Tests.run (.jal 1 0x1FFFFF) [] 1 = some (placeAddr + 4)
  ∧ Tests.leaps (.jalr 1 1 0xFFFC) [(1, placeAddr + 8)] = some 4 ∧ Tests.run (.jalr 1 1 0) [(1, placeAddr)] 1 = some (placeAddr + 4) := by decide +kernel

/-- Both forms of target, the misaligned one at its smallest. -/
theorem witness_JumpRegister : let p := Tests.proc [(2, placeAddr)]
  (Tests.one p).proc? 0 = some p ∧ (p.rd 2 + BitVec.ofInt 64 (4 : BitVec 16).toInt).toNat % 4 = 0
  ∧ (p.rd 2 + BitVec.ofInt 64 (1 : BitVec 16).toInt).toNat % 4 ≠ 0 ∧ Tests.cause (exec (.jalr 1 2 1) (Tests.one p)) = some 0x08 := by decide +kernel

theorem witness_FloatWords : let p := Tests.proc [(2, 0x7FC00000), (3, 0x3F800000)]
  (Tests.one p).proc? 0 = some p ∧ fFp32.decode ((p.rd 2).toNat % 2 ^ 32) = .nan ∧ fFp32.decode ((p.rd 3).toNat % 2 ^ 32) ≠ .nan := by decide +kernel

theorem test_float : Tests.run (.fadd 1 2 3) [(2, 0x3F800000), (3, 0x3F800000)] 1 = some 0x40000000
  ∧ Tests.run (.fsub 1 2 3) [(2, 0x3F800000), (3, 0x3F800000)] 1 = some 0 ∧ Tests.run (.fmul .ex 1 2 3) [(2, 0x40400000), (3, 0xC0000000)] 1 = some 0xC0C00000
  ∧ Tests.run (.fma .ex 1 2 3) [(1, 0x3F800000), (2, 0x40400000), (3, 0x40000000)] 1 = some 0x40E00000
  ∧ Tests.run (.fmin 1 2 3) [(2, 0x3F800000), (3, 0xBF800000)] 1 = some 0xBF800000 ∧ Tests.run (.fmax 1 2 3) [(2, 0x3F800000), (3, 0x7FC00000)] 1 = some 0x7FC00000
  ∧ Tests.run (.fcmpeq 1 2 3) [(2, 0), (3, 0x80000000)] 1 = some 1 ∧ Tests.run (.fcmplt 1 2 3) [(2, 0xBF800000)] 1 = some 1
  ∧ Tests.run (.fcmple 1 2 3) [(2, 0x3F800000)] 1 = some 0 := by decide +kernel

/-- Every kind of operand FDIV, FSQRT and the conversions tell apart. -/
theorem witness_FloatDivisionAndConversion : fFp32.decode 0x7FC00000 = .nan ∧ fFp32.decode 0x7F800000 = .inf false ∧ fFp32.decode 0xFF800000 = .inf true
  ∧ (match fFp32.decode 0x80000000 with | .fin true 0 _ => true | _ => false) = true
  ∧ (match fFp32.decode 1 with | .fin false 1 _ => true | _ => false) = true ∧ (match fFp32.decode 0x80000001 with | .fin true 1 _ => true | _ => false) = true
  ∧ (roundInt .rz 0 true (2 ^ 63 + 1) 0).1 < -2 ^ 63 ∧ (roundInt .rz 0 false (2 ^ 63) 0).1 = 2 ^ 63 ∧ (roundInt .rz 0 false 3 (-1)).1 = 1
  ∧ (Tests.one placeProc).proc? 0 = some placeProc := by decide +kernel

theorem test_float_divide : Tests.run (.fdiv 1 2 3) [(2, 0x3F800000), (3, 0x40400000)] 1 = some 0x3EAAAAAB
  ∧ Tests.run (.fdiv 1 2 3) [(2, 0xBF800000)] 1 = some 0xFF800000 ∧ Tests.run (.fdiv 1 2 3) [] 1 = some 0x7FC00000
  ∧ Tests.run (.fsqrt 1 2) [(2, 0x40000000)] 1 = some 0x3FB504F3 ∧ Tests.run (.fsqrt 1 2) [(2, 0x80000000)] 1 = some 0x80000000 := by decide +kernel

theorem test_float_convert : Tests.run (.fcvtfi .rne 1 2) [(2, 16777217)] 1 = some 0x4B800000 ∧ Tests.run (.fcvtfi .ru 1 2) [(2, 16777217)] 1 = some 0x4B800001
  ∧ Tests.run (.fcvtif .rz 1 2) [(2, 0xBFC00000)] 1 = some 0xFFFFFFFFFFFFFFFF ∧ Tests.run (.fcvtif .rne 1 2) [(2, 0x7F800000)] 1 = some 0x7FFFFFFFFFFFFFFF
  ∧ Tests.run (.fcvtbf .rne 1 2) [(2, 0x3F808000)] 1 = some 0x3F80 ∧ Tests.run (.fcvtfb 1 2) [(2, 0x3F80)] 1 = some 0x3F800000 := by decide +kernel

theorem witness_CanonicalNan : fFp32.decode (fFp32.addEnc 0x7FC00000 0).1 = .nan ∧ fFp32.decode 0x7FFFFFFF = .nan := by decide +kernel

/-- A value that is a format's, one between two of them, and a tie. -/
theorem witness_Rounding : (0x3F800000 < 2 * fFp32.signBit ∧ 0x3F800000 % fFp32.signBit ≤ fFp32.maxEnc)
  ∧ (∀ x ∈ [FVal.fin false (2 ^ 24 + 1) 0, .fin false (2 ^ 25 + 1) 0, .fin false (2 ^ 25 + 3) 0, .fin false 1 0], (roundVal fFp32 x .rz).1 < fFp32.maxEnc)
  ∧ (roundVal fFp32 (.fin false (2 ^ 24 + 1) 0) .rne).1 = 0x4B800000 ∧ (roundVal fFp32 (.fin false (2 ^ 25 + 3) 0) .rne).1 = 0x4C000001
  ∧ (let lo := fFp32.decode 0x4C000000; let hi := fFp32.decode 0x4C000001; let x := FVal.fin false (2 ^ 25 + 1) 0
     (x.add x).1.lt (lo.add hi).1 = true) := by decide +kernel

/-! ## Control registers, fences and service words -/

/-- A process with a block in its queue. -/
def Tests.busy (p : Proc) : Proc := p.enqueue .block placeAddr []

/-- A process with eight. -/
def Tests.full (p : Proc) : Proc := (List.range 8).foldl (fun q _ => Tests.busy q) p

theorem witness_ControlRegisters : (Tests.one placeProc).proc? 0 = some placeProc ∧ placeProc.pending = [] ∧ placeProc.vectorIdle = true
  ∧ (Tests.busy placeProc).pending = [] ∧ (Tests.busy placeProc).vectorIdle = false
  ∧ (Tests.one (Tests.busy placeProc)).proc? 0 = some (Tests.busy placeProc) := by decide +kernel

/-- PCFG of the placed process: 4 accumulators, 64 rows, 255 event bits, one page of scratchpad (R144). -/
theorem test_control_register : Tests.run (.ctlr 1 0x000) [] 1 = some (BitVec.ofNat 64 (4 * 2 ^ 52 + 64 * 2 ^ 42 + 255 * 2 ^ 25 + 64))
  ∧ Tests.run (.ctlr 1 0x020) [] 1 = some (BitVec.ofNat 64 (2 * 2 ^ 16 + 8 * 2 ^ 12 + 24 * 2 ^ 7)) ∧ Tests.run (.ctlr 1 0x040) [] 1 = some 0x204040
  ∧ Tests.after (BitVec 32) (exec (.ctlwVbcnt 1 2) (Tests.one (Tests.proc [(1, 0x100000007)]))) (fun p => p.vbcnt[2]) = some 7 := by decide +kernel

theorem witness_PrivilegedWords : let q := { placeProc with priv := true }
  let s := { Tests.one q with contexts := [(0, placeProc)] }
  s.proc? s.cur = some q ∧ q.priv = true ∧ placeProc.priv = false ∧ mget s.contexts 0 = some placeProc ∧ mget (Tests.one q).contexts 0 = none
    ∧ (s.tile 0).cycle + 8 ≤ 8 := by decide +kernel

theorem test_privilege : Tests.cause (exec (.ctlrPmbox 1 0) (Tests.one placeProc)) = some 0x03 ∧ Tests.cause (exec .eret (Tests.one placeProc)) = some 0x03
  ∧ Tests.after Word (exec .eret { Tests.one { placeProc with priv := true } with
      contexts := [(0, { placeProc with st := .trapped, trap := { TrapRegs.zero with epc := 64 } })] }) (·.pc) = some 64 := by decide +kernel

theorem witness_ServiceTraps : let s := Tests.one placeProc
  (placeProc.vectorIdle && (s.tile 0).vecDrained 0) = true ∧ (s.flushAll 0).proc? 0 = some placeProc
    ∧ ((Tests.busy placeProc).vectorIdle && (s.tile 0).vecDrained 0) = false := by decide +kernel

theorem test_service : Tests.cause (exec .sysc (Tests.one placeProc)) = some 0x09 ∧ Tests.cause (exec .brk (Tests.one placeProc)) = some 0x0A
  ∧ Tests.after Word (exec .brk (Tests.one placeProc)) (fun p => p.trap.epc - p.trap.taddr) = some 4 := by decide +kernel

/-- A scratchpad store of a process in its FIFO. -/
def Tests.store (vec : Bool) : SpadStore := { seq := 0, line := 0, enable := 1, bytes := 0xAB, poison := 0, vec, rel := false }

/-- A tile with that store waiting. -/
def Tests.storing (vec : Bool) : Tile := { placeTile with fifos := [(0, [Tests.store vec])] }

theorem witness_FenceWords : let idle := placeProc
  (Tests.one idle).proc? 0 = some idle ∧ idle.queue.length < 8 ∧ (Tests.full idle).queue.length = 8 ∧ idle.vectorIdle = true
    ∧ ((Tests.one idle).tile 0).pendingStores 0 = [] ∧ ((Tests.tiled idle (Tests.storing true)).tile 0).pendingStores 0 = [Tests.store true]
    ∧ idle.acks = [] ∧ idle.queries = [] ∧ idle.launches = [] ∧ idle.cueWait = [] ∧ idle.armed = false ∧ ∀ j < 8, idle.streamOwes j = false := by
  decide +kernel

theorem test_fence : Tests.after PState (exec .fenceSv (Tests.tiled placeProc (Tests.storing false))) (·.st) = some (.parked .vectorDrain)
  ∧ Tests.after PState (exec .fenceSv (Tests.tiled placeProc (Tests.storing true))) (·.st) = some .ready
  ∧ Tests.after PState (exec .vsync (Tests.one (Tests.busy placeProc))) (·.st) = some (.parked .vectorDrain)
  ∧ Tests.after PState (exec .retire (Tests.one placeProc)) (·.st) = some .retired := by decide +kernel

/-! ## Hand-over to the vector unit -/

/-- A stream: mode code, count, strips of 256 FP32 elements at twice their first address, two groups deep. -/
def Tests.stream (m : StreamMode) (code count : Nat) : StreamCtx :=
  { StreamCtx.init with
    mode := m, conf := 1, base := 0x0008000000000000, ctrl := BitVec.ofNat 64 (count * 2 ^ 29 + 10 * 2 ^ 20 + code * 2 ^ 15 + 2 * 2), lrows := 2 }

/-- The placed process with stream 0. -/
def Tests.streaming (t : StreamCtx) : Proc := { placeProc with streams := placeProc.streams.set 0 t }

theorem witness_VectorHandOver : (Tests.one placeProc).proc? 0 = some placeProc ∧ placeProc.pending = [] ∧ placeProc.vectorIdle = true
  ∧ (∀ j < 8, (placeProc.stream j).mode ≠ .unconfigured ∨ (placeProc.stream j).open = false) ∧ placeProc.closing = []
  ∧ (∀ j < 8, (placeProc.stream j).bound = false)
  ∧ ((Tests.streaming (Tests.stream .load 1 512)).stream 0).bound = true ∧ (4 * (0 : BitVec 3).toNat = 0 ∧ (1 : BitVec 4) ≠ 0)
  ∧ { placeDesc with rows := 31 }.rows < 4 * (6 : BitVec 3).toNat + (8 : BitVec 4).toNat ∧ ¬placeDesc.rows < 4 * (6 : BitVec 3).toNat + (8 : BitVec 4).toNat
  ∧ (placeAddr + BitVec.ofInt 64 (4 * (1 : BitVec 21).toInt)).getLsbD 2 = true ∧ (placeAddr + BitVec.ofInt 64 (4 * (2 : BitVec 21).toInt)).getLsbD 2 = false
  ∧ placeProc.queue.length < 8 ∧ 8 ≤ (Tests.full placeProc).queue.length := by decide +kernel

/-- VLOOP's causes at their edges: a count of 2^32, a mask bit at the window's end, a stream without enough strips. -/
theorem witness_VectorHandOver_loop : placeProc.vloopCause 0x100000000 0 = some 0x65 ∧ placeProc.vloopCause 0xFFFFFFFF 0 = none
  ∧ placeProc.vloopCause 1 0x000000000000FFFF = some 0x64 ∧ (Tests.streaming (Tests.stream .load 1 512)).vloopCause 3 0x0100000000000000 = some 0x61
  ∧ (Tests.streaming (Tests.stream .load 1 512)).vloopCause 2 0x0100000000000000 = none := by decide +kernel

theorem test_vconf : Tests.run (.vconf 1 2 8) [] 1 = some (BitVec.ofNat 64 (4 * 2 ^ 16 + 8 * 2 ^ 12 + 8 * 2 ^ 7))
  ∧ Tests.cause (exec (.vconf 1 0 1) (Tests.one placeProc)) = some 0x50
  ∧ Tests.cause (exec (.vconf 1 1 0) (Tests.one (Tests.streaming (Tests.stream .load 1 512)))) = some 0x51 := by decide +kernel

theorem test_hand_over : Tests.after (List Word) (exec (.vfetch 2) (Tests.one placeProc)) (fun p => p.queue.map (·.addr)) = some [placeAddr + 8]
  ∧ Tests.cause (exec (.vfetch 1) (Tests.one placeProc)) = some 0x08
  ∧ Tests.after (List (Nat × Word)) (exec (.vloop 1 2 4) (Tests.one (Tests.proc [(1, placeAddr), (2, 3)]))) (fun p => p.queue.map (fun e =>
      match e.kind with
      | .loop trip _ _ _ _ => (trip, e.addr)
      | _ => (0, 0))) = some [(3, placeAddr)] := by decide +kernel

theorem witness_SizesAndSteps : let p := Tests.streaming (Tests.stream .load 1 512)
  (Tests.one p).proc? 0 = some p ∧ (∀ j < 8, (1 : BitVec 8).getLsbD j = true → (p.stream j).bound = true ∧ (p.stream j).steps < (p.stream j).stripCount)
    ∧ ∃ j < 8, (2 : BitVec 8).getLsbD j = true ∧ ¬((p.stream j).bound = true ∧ (p.stream j).steps < (p.stream j).stripCount) := by decide +kernel

theorem test_sizes : Tests.after Grant (exec (.msetl 1 2 4) (Tests.one (Tests.proc [(1, 65), (2, 0xFFFFFFFFFFFFFFFF), (4, 33)]))) (·.grant)
    = some { m := 64, n := 0, k := 32 }
  ∧ Tests.cause (exec (.sstep 1) (Tests.one placeProc)) = some 0x61
  ∧ Tests.after Nat (exec (.sstep 1) (Tests.one (Tests.streaming (Tests.stream .load 1 512)))) (fun p => (p.stream 0).steps) = some 1 := by decide +kernel

/-! ## Loads, stores, atomics -/

/-- A tile with bytes at the start of its scratchpad. -/
def Tests.filled (b : List Byte) : Tile := { placeTile with spad := memPutBytes [] 0 b }

theorem witness_LoadWords : let p := Tests.proc [(2, 4095), (4, 4096)]
  let s := { Tests.tiled p (Tests.filled [0x80]) with picks := [0] }
  let q := { p with pend := some (.done (Tests.reply 0 [0x80])) }
  s.proc? s.cur = some p ∧ p.pend = none ∧ (∃ r, q.pend = some (.done r)) ∧ (p.rd 2).toNat % 2 ≠ 0 ∧ (p.rd 2).toNat % 1 = 0
    ∧ (p.rd 2).getLsbD 51 = false ∧ p.desc.spadCheck (p.rd 4) 1 = some 0x23 ∧ p.desc.spadCheck (p.rd 2) 1 = none
    ∧ ((s.tile 0).errors = [] ∧ ∀ k < 4, ((s.tile 0).slice k).st = .normal)
    ∧ (s.tile 0).overlaps 0 4095 1 = false ∧ (s.tile 0).spadPoison.contains (4095 / 8) = false := by
  refine ⟨by decide +kernel, by decide, ⟨_, rfl⟩, ?_⟩
  decide +kernel

theorem test_load : Tests.reg (exec (.ld .b .relaxed 1 2 0) { Tests.tiled (Tests.proc []) (Tests.filled [0x80]) with picks := [0] }) 1
    = some 0xFFFFFFFFFFFFFF80
  ∧ Tests.reg (exec (.ldu .h .relaxed 1 2 0) { Tests.tiled (Tests.proc []) (Tests.filled [0x80, 0x81]) with picks := [0] }) 1 = some 0x8180
  ∧ Tests.cause (exec (.ld .h .relaxed 1 2 1) (Tests.one (Tests.proc []))) = some 0x08
  ∧ Tests.cause (exec (.ld .b .relaxed 1 2 0) (Tests.one (Tests.proc [(2, 4096)]))) = some 0x23 := by decide +kernel

/-- A tile whose first FIFO is full. -/
def Tests.fifoFull : Tile := { placeTile with fifos := [(0, List.replicate 8 (Tests.store false))] }

theorem witness_StoreWords : let p := Tests.proc [(1, 0x1234), (2, 4094), (4, 4096)]
  let s := Tests.one p
  s.proc? s.cur = some p ∧ p.pend = none ∧ (p.rd 2).toNat % 4 ≠ 0 ∧ (p.rd 2).toNat % 2 = 0 ∧ (p.rd 2).getLsbD 51 = false
    ∧ p.desc.spadCheck (p.rd 2) 2 = none ∧ p.desc.spadCheck (p.rd 4) 2 = some 0x23
    ∧ ((s.tile 0).fifo 0 3).length < 8 ∧ 8 ≤ ((Tests.tiled p Tests.fifoFull).tile 0 |>.fifo 0 0).length := by decide +kernel

theorem test_store : (match exec (.st .h .relaxed 1 2 0) (Tests.one (Tests.proc [(1, 0x1234), (2, 62)])) with
    | .next t => ((t.tile 0).fifo 0 0).map (fun e => (e.line, e.enable, e.bytes))
    | _ => []) = [(0, BitVec.ofNat 64 (3 * 2 ^ 62), BitVec.ofNat 512 (0x1234 * 2 ^ 496))]
  ∧ Tests.after PState (exec (.st .b .relaxed 1 2 0) (Tests.tiled (Tests.proc []) Tests.fifoFull)) (·.st) = some (.parked .memoryReply) := by
  decide +kernel

theorem witness_AtomicWords : let p := Tests.proc [(2, 4), (4, 2)]
  (Tests.one p).proc? 0 = some p ∧ p.pend = none ∧ (p.rd 4).toNat % 4 ≠ 0 ∧ (p.rd 2).toNat % 4 = 0 ∧ (p.rd 2).getLsbD 51 = false
    ∧ { p with pend := some (.done (Tests.reply 0 [0, 0, 0, 0x80])) }.pend = some (.done (Tests.reply 0 [0, 0, 0, 0x80])) := by decide +kernel

theorem test_atomic : Tests.cause (exec (.amoadd .w .relaxed 1 2 4) (Tests.one (Tests.proc [(2, 4)]))) = some 0x70
  ∧ Tests.cause (exec (.cas .d .relaxed 1 2 4) (Tests.one (Tests.proc [(2, 4)]))) = some 0x08
  ∧ Tests.reg (exec (.amoswap .w .relaxed 1 2 4) (Tests.one { placeProc with pend := some (.done (Tests.reply 0 [0, 0, 0, 0x80])) })) 1
    = some 0xFFFFFFFF80000000 := by decide +kernel

/-- A load of device memory: its page is in the TLB; one whose page is not readable; one outside the window; a release
that waits. -/
theorem witness_DeviceAccesses : let p := Tests.proc [(2, placeAddr), (4, 0x0018000000000000)]
  let s := Tests.one p
  let i := Instr.ld .d .relaxed 1 2 8
  let a : Access := { va := placeAddr + 8, n := 8, kind := kRead, req := .read 8, rel := false }
  s.proc? s.cur = some p ∧ p.pend = none ∧ p.accessOf i = some a ∧ recordBytes i = 0 ∧ a.va.toNat % a.n = 0 ∧ a.va.getLsbD 51 = true
    ∧ a.va >>> 48 = 8 ∧ (p.rd 4).getLsbD 51 = true ∧ (p.rd 4) >>> 48 ≠ 8 ∧ tlbFind (s.tile 0).tlb a.va.toNat = some (.page 4096 true false true (.phys 0))
    ∧ ((Leaf.page 4096 true false true (.phys 0)).access a.va.toNat kRead).toOption = some (.phys 8)
    ∧ ((Leaf.page 4096 true false true (.phys 0)).access a.va.toNat kWrite).toOption = none
    ∧ (p.accessOf (.st .d .device 1 2 8)).map (·.rel) = some true
    ∧ ((Tests.tiled { p with storeSeq := 1 } (Tests.storing false)).tile 0).drained 0 1 = false := by decide +kernel

theorem test_device : (match exec (.ld .d .relaxed 1 2 8) (Tests.one (Tests.proc [(2, placeAddr)])) with
    | .next t => t.flight.map (fun r => (r.pa, r.kind))
    | _ => []) = [(8, .read 8)]
  ∧ Tests.cause (exec (.st .d .relaxed 1 2 8) (Tests.one (Tests.proc [(2, placeAddr)]))) = some 0x21
  ∧ Tests.cause (exec (.ld .d .relaxed 1 2 0) (Tests.one (Tests.proc [(2, 0x0018000000000000)]))) = some 0x24 := by decide +kernel

/-! ## Channels, streams, events, transfers -/

/-- A token of the narrow kind. -/
def Tests.token (w : Nat) (tag : Byte) (psn : Bool) : Token := { data := leBytes 8 w, tag, poison := [psn] }

/-- A channel of four slots from port 1 of process 0 to port 2 of it, with tokens in its buffer. -/
def Tests.chan (b : List Token) : Chan :=
  { newChan 1 0 0 4 0 false false (.proc 0 2) [.proc 0 1] with buffer := b.map (fun t => (0, t)), written := BitVec.ofNat 32 b.length }

/-- The placed process with both ends. -/
def Tests.ported (p : Proc) : Proc := { p with ports := [(1, (5, true)), (2, (5, false))] }

/-- The machine of one process with that channel. -/
def Tests.linked (p : Proc) (x : Chan) : State := { Tests.one p with chans := [(5, x)] }

/-- An armed cue slot. -/
def Tests.slot (time ctrl : Nat) : CueSlot := { time := BitVec.ofNat 64 time, ctrl := BitVec.ofNat 64 ctrl, after := 0, since := 0 }

/-- A process with its cue slot 1 armed. -/
def Tests.armed (p : Proc) (time ctrl : Nat) : Proc := { p with cue := p.cue.set 1 (some (Tests.slot time ctrl)) }

/-- Each way a port can be: unbound, the wrong end, held by a cue slot, to a retired consumer, without and with a credit. -/
theorem witness_SendWords : let p := Tests.ported placeProc
  let x := Tests.chan []
  (Tests.linked p x).proc? 0 = some p ∧ p.pending = [] ∧ p.port 0 = none ∧ p.port 2 = some (5, false) ∧ p.port 1 = some (5, true)
    ∧ (Tests.linked p x).chan? 5 = some x ∧ p.portHeld 1 = false ∧ (Tests.armed p 9 (4 + 16)).portHeld 1 = true
    ∧ (Tests.linked p x).consumerRetired x = false ∧ (Tests.linked { p with st := .retired } x).consumerRetired x = true
    ∧ mget (Tests.linked p x).nets x.net = some placeNet ∧ x.prodOf (.proc 0 1) = some 0 ∧ (x.prods[0]?).map (·.credits) = some 4
    ∧ ({ x with prods := x.prods.map (fun d : Producer => { d with credits := 0 }) }.prods[0]?).map (·.credits) = some 0 := by decide +kernel

theorem test_send : (match exec (.sendc 3 1 7) (Tests.linked (Tests.ported (Tests.proc [(3, 0xAB)])) (Tests.chan [])) with
    | .next t => (t.proc? 0).map (fun p => p.launches.map (fun l => (l.token.tag, l.token.data, l.chan)))
    | _ => none) = some [(7, leBytes 8 0xAB, 5)]
  ∧ Tests.cause (exec (.send 3 0) (Tests.linked (Tests.ported placeProc) (Tests.chan []))) = some 0x30
  ∧ Tests.cause (exec (.send 3 2) (Tests.linked (Tests.ported placeProc) (Tests.chan []))) = some 0x34 := by decide +kernel

theorem witness_ReceiveWords : let p := Tests.ported placeProc
  (∀ b ∈ [[], [Tests.token 9 0 false], [Tests.token 9 127 false], [Tests.token 9 128 false], [Tests.token 9 0 true]],
    (Tests.linked p (Tests.chan b)).proc? 0 = some p ∧ (Tests.linked p (Tests.chan b)).chan? 5 = some (Tests.chan b))
  ∧ p.pending = [] ∧ p.port 0 = none ∧ p.port 1 = some (5, true) ∧ p.port 2 = some (5, false) ∧ p.triggered 2 = false
  ∧ { p with triggers := [(2, 0, 0)] }.triggered 2 = true ∧ (Tests.chan []).buffer = []
  ∧ (Tests.chan [Tests.token 9 0 true]).buffer = [(0, Tests.token 9 0 true)] ∧ (Tests.token 9 0 true).poison.headD false = true := by decide +kernel

theorem test_receive : (Tests.after (Word × Word) (exec (.recv 6 2) (Tests.linked (Tests.ported placeProc) (Tests.chan [Tests.token 9 128 false])))
    (fun p => (p.rd 6, p.rd 7))) = some (9, 128)
  ∧ Tests.cause (exec (.recvn 6 2) (Tests.linked (Tests.ported placeProc) (Tests.chan [Tests.token 9 128 false]))) = some 0x32
  ∧ Tests.cause (exec (.recvn 6 2) (Tests.linked (Tests.ported placeProc) (Tests.chan [Tests.token 9 1 false]))) = some 0x31
  ∧ Tests.cause (exec (.recv 6 2) (Tests.linked (Tests.ported placeProc) (Tests.chan [Tests.token 9 0 true]))) = some 0x40 := by decide +kernel

/-- A stream record in memory: BASE, AUX, STRIDE, the control doubleword, the bits, and the reserved one. -/
def Tests.record (t : StreamCtx) (res : Nat) : List Byte :=
  leBytes 8 t.base.toNat ++ leBytes 8 t.aux.toNat ++ leBytes 8 t.stride.toNat ++ leBytes 8 t.ctrl.toNat ++ leBytes 8 t.bits.toNat ++ leBytes 8 res

/-- A process whose record has been read. -/
def Tests.reads (p : Proc) (b : List Byte) : Proc := { p with pend := some (.done (Tests.reply 0 [])), record := b }

theorem witness_StreamWords : let b := Tests.record (Tests.stream .load 1 512) 0
  let p := Tests.reads (Tests.proc [(2, placeAddr)]) b
  let s := Tests.one p
  s.proc? s.cur = some p ∧ p.pending = [] ∧ (∃ r, p.pend = some (.done r)) ∧ 48 ≤ p.record.length ∧ p.streamHeld 0 = false
    ∧ s.recordWait p (.sconf 2 0) b = none ∧ ((p.stream 0).bound || ((p.stream 0).mode == .copy && !(p.stream 0).kicks.isEmpty)) = false
    ∧ ((Tests.streaming (Tests.stream .load 1 512)).stream 0).bound = true ∧ p.recordCause 0 (recordOf b) 0 = none ∧ p.recordCause 0 (recordOf b) 1 = some 0x60
    ∧ (recordOf b).modeCode ≠ 0 ∧ (recordOf b).groupList = [0, 1] ∧ p.oldStrips 0 (recordOf b) = false
    ∧ (let t := { Tests.stream .load 1 512 with faulting := some (0x21, 0, 0) }
       t.modeCode ≠ 0 ∧ t.unfinished = true) := by
  refine ⟨by decide +kernel, rfl, ⟨_, rfl⟩, ?_⟩
  decide +kernel

/-- SKICK's causes at its edges, the four transfers it takes, an empty one; STWAIT and SDRAIN in each of their cases. -/
theorem witness_StreamWords_kick : let t := Tests.stream .load 1 512
  let c := { Tests.stream .copy 0 512 with lastId := 3, watermark := 2 }
  let k : Kick := { id := 3, offset := 0, started := false, next := 0, age := 0 }
  placeProc.kickCause 0 0 = some 0x61 ∧ (Tests.streaming { t with kicked := true }).kickCause 0 0 = some 0x61
    ∧ (Tests.streaming { c with fault := true }).kickCause 0 0 = some 0x66 ∧ (Tests.streaming { c with lastId := 2 ^ 48 - 1 }).kickCause 0 0 = some 0x67
    ∧ (Tests.streaming { c with lastId := 2 ^ 48 - 2 }).kickCause 0 0 = none ∧ (Tests.streaming t).kickCause 0 0 = none ∧ t.count = 512
    ∧ (Tests.stream .copy 0 0).count = 0 ∧ 4 ≤ { c with kicks := List.replicate 4 k }.kicks.length ∧ c.kicks.length < 4
    ∧ ((Tests.one (Tests.streaming t)).flushAll 0).proc? 0 = some (Tests.streaming t)
    ∧ c.lastId < 4 ∧ (3 ≤ c.lastId ∧ c.fault = false ∧ c.watermark < 3) ∧ (2 ≤ c.lastId ∧ 2 ≤ c.watermark)
    ∧ (Tests.streaming { c with kicks := [k] }).streamOwes 0 = true ∧ c.mode ≠ .unconfigured ∧ (Tests.streaming c).streamOwes 0 = false
    ∧ (Tests.streaming c).streamHeld 0 = false := by decide +kernel

theorem test_stream : Tests.after (StreamMode × Nat × Nat) (exec (.sconf 2 0) (Tests.one (Tests.reads (Tests.proc [(2, placeAddr)])
      (Tests.record (Tests.stream .load 1 512) 0)))) (fun p => ((p.stream 0).mode, (p.stream 0).lrows, (p.stream 0).stripCount)) = some (.load, 2, 2)
  ∧ Tests.after (List (Nat × Nat)) (exec (.skick 2 0) (Tests.one (Tests.streaming (Tests.stream .load 1 512)))) (fun p => (p.stream 0).kicks.map (fun k =>
      (k.id, k.offset))) = some [(1, 0)]
  ∧ Tests.reg (exec (.stwait 1 2 0) (Tests.one (Tests.streaming { Tests.stream .copy 0 512 with lastId := 3, watermark := 2 }))) 1 = some 2
  ∧ Tests.after StreamMode (exec (.sdrain 0) (Tests.one (Tests.streaming (Tests.stream .load 1 512)))) (fun p => (p.stream 0).mode)
    = some .unconfigured := by decide +kernel

/-- Event masks at the window's edges, met and not; a cue time reached and not; each form of CUE; DISPQ's causes. -/
theorem witness_EventAndCueWords : let p := Tests.proc [(2, 0x1FE), (3, 0x1FF), (4, 0x100000000), (5, 0x100)]
  (Tests.one p).proc? 0 = some p ∧ p.pending = []
    ∧ p.desc.evcnt < 255 + (1 : Nat).log2 + 1 ∧ ¬p.desc.evcnt < 254 + (1 : Nat).log2 + 1 ∧ (p.rd 4).toNat / 2 ^ 32 ≠ 0
    ∧ p.testAmong ((Tests.one p).tile 0) 1 (fun _ => true) = false
    ∧ p.testAmong ((Tests.tiled p { placeTile with events := 1 }).tile 0) 1 (fun _ => true) = true
    ∧ ((Tests.one p).flushAll 0).proc? 0 = some p ∧ (p.rd 0).toNat ≤ (Tests.one p).cue ∧ ¬(p.rd 5).toNat ≤ (Tests.one p).cue := by decide +kernel

theorem witness_EventAndCueWords_cue : let p := Tests.ported placeProc
  let s := { Tests.linked p (Tests.chan []) with nets := [(0, { placeNet with offices := [(7, 3)] })] }
  cueMalformed (2 ^ 24) = true ∧ cueMalformed (4 + 16) = false ∧ cueMalformed 0 = false ∧ (Tests.armed p 9 (4 + 16)).portHeld 1 = true
    ∧ p.portHeld 1 = false ∧ s.cueCause p (4 + 2 * 16) = some 0x34 ∧ s.cueCause p (4 + 16) = none ∧ s.cueCause p 8 = some 0x61 ∧ s.cueCause p 0 = none
    ∧ s.cueCause p (12 + 255 * 256) = some 0x64 ∧ s.cueCause p (12 + 254 * 256) = none
    ∧ s.dispqCause p 0 1 0 = some 0x71 ∧ s.dispqCause p 4 0 0 = some 0x08 ∧ s.dispqCause p placeAddr 0 0 = some 0x72 ∧ s.dispqCause p 4096 0 0 = some 0x23
    ∧ s.dispqCause p 0 0 255 = some 0x64 ∧ s.dispqCause p 4088 0 254 = none ∧ p.queries.length < 8
    ∧ 8 ≤ { p with queries := List.replicate 8 { office := 0, addr := 0, ev := 0, answer := none, store := none } }.queries.length
    ∧ (mget s.nets p.net).bind (fun n => n.offices[0]?) = some (7, 3) ∧ 7 < 32 := by decide +kernel

theorem test_event : (match exec (.evset 2) (Tests.one (Tests.proc [(2, 0x3FE)])) with
    | .next t => (t.tile 0).events
    | _ => 0) = 0
  ∧ (match exec (.evset 2) (Tests.one (Tests.proc [(2, 0x1FE)])) with
    | .next t => (t.tile 0).events
    | _ => 0) = BitVec.ofNat 256 (2 ^ 254)
  ∧ Tests.cause (exec (.evwait 2) (Tests.one (Tests.proc [(2, 0x1FF)]))) = some 0x64
  ∧ Tests.after PState (exec (.evwait 2) (Tests.one (Tests.proc [(2, 0x100)]))) (·.st) = some (.parked .eventWait)
  ∧ Tests.after PState (exec (.cuewait 2) (Tests.one (Tests.proc [(2, 1)]))) (·.st) = some (.parked .cueWait) := by decide +kernel

/-- A request record: SRC, DST, LEN and TQH, control. -/
def Tests.request (len control : Nat) : List Byte := leBytes 8 0x0008000000000000 ++ leBytes 8 0x0008000000001000 ++ leBytes 8 len ++ leBytes 8 control

/-- A group of two packages, this one first, process 0 issuing. -/
def Tests.group : CollBind := { digest := { devcnt := 2, ranks := [0, 1], tag := 5 }, rank := 0, proc := 0 }

/-- The machine of one process whose network has that group; the package is number 0. -/
def Tests.grouped (p : Proc) : State := { Tests.one p with nets := [(0, { placeNet with coll := some Tests.group })], self := some 0 }

/-- XCOLL's operand: COUNT, OP 0, type FP32, DEVCNT. -/
def Tests.collWord (count devcnt : Nat) : Word := BitVec.ofNat 64 (count + 10 * 2 ^ 44 + devcnt * 2 ^ 54)

/-- A collective of 16 FP32 elements at the start of device space. -/
def Tests.coll (n : Nat) : Coll :=
  { number := n, et := 10, op := 0, count := 16, addr := placeAddr, started := false, prevOk := false, nextOk := false, chunk := 0, phase := .read
    bytes := [], poison := [], written := 0 }

theorem witness_TransferWords : let p := Tests.reads (Tests.proc [(2, placeAddr)]) (Tests.request 64 0)
  let s := Tests.one p
  s.proc? s.cur = some p ∧ p.pending = [] ∧ (∃ r, p.pend = some (.done r)) ∧ 32 ≤ p.record.length
    ∧ p.postCause 4 (p.record.take 32) = some 0x94 ∧ p.postCause 3 (p.record.take 32) = none ∧ p.postCause 0 (Tests.request 0 0) = some 0x94
    ∧ s.recordWait p (.xpost 2 3) (p.record.take 32) = none
    ∧ (((s.setProc 0 { p with pend := none, record := [] }).flushAll 0).proc? 0).isSome = true := by
  refine ⟨by decide +kernel, rfl, ⟨_, rfl⟩, ?_⟩
  decide +kernel

/-- XWAIT's selectors and edges, and XCOLL's. -/
theorem witness_TransferWords_wait : let q : XQueue := { XQueue.init 0 with posted := 2, doneCount := 1 }
  let p := { placeProc with xq := placeProc.xq.set 0 q }
  let f := { placeProc with xq := placeProc.xq.set 0 { q with fault := some (2, 0x94) } }
  p.xwaitOk 0x30000 = false ∧ p.xwaitOk 0x20000 = true ∧ p.xwaitOk 0x30 = false ∧ 1 ≤ p.xcount 0 0 ∧ p.xcount 0 0 < 2 ∧ p.xfault 0 0 2 = none
    ∧ f.xwaitOk 0x20000 = true ∧ f.xfault 0 0 2 = some (2, 0x94)
    ∧ (let s := Tests.grouped p
      s.collCause 0 p (Tests.collWord 0 2) placeAddr = some 0x94 ∧ s.collCause 0 p (Tests.collWord 1 2) (placeAddr + 32) = some 0x08
        ∧ s.collCause 0 p (Tests.collWord 1 3) placeAddr = some 0x95 ∧ s.collCause 0 p (Tests.collWord 1 2) placeAddr = none
        ∧ (Tests.one p).collCause 0 p (Tests.collWord 1 2) placeAddr = some 0x95 ∧ p.colls.length < 4
        ∧ 4 ≤ { p with colls := List.replicate 4 (Tests.coll 1) }.colls.length ∧ (s.flushAll 0).proc? 0 = some p) := by decide +kernel

theorem test_transfer : Tests.after (List (Nat × Nat)) (exec (.xpost 2 3) (Tests.one (Tests.reads (Tests.proc [(2, placeAddr), (3, 1)]) (Tests.request 64 0x10020))))
      (fun p => (p.queueAt 1).posts.map (fun t => (t.number, t.len))) = some [(1, 64)]
  ∧ Tests.after (Nat × List Nat) (exec (.xcoll 2 3) (Tests.grouped (Tests.proc [(2, Tests.collWord 16 2), (3, placeAddr)])))
      (fun p => (p.collIssued, p.colls.map (·.number))) = some (1, [1])
  ∧ Tests.cause (exec (.xwait 1 2) (Tests.one (Tests.proc [(2, 0x10000)]))) = some 0x94
  ∧ Tests.run (.xwait 1 2) [(2, 0)] 1 = some 0 := by decide +kernel

/-! ## Vector words -/

/-- The placed process, two rows to a register, with rows set: v1 is rows 2 and 3. -/
def Tests.rows (r : AMap (BitVec 4096)) (m : AMap Nat) : Proc := { Tests.proc [(1, 3), (2, 1)] with rows := r, masks := m }

/-- The machine of one process whose network has a ring of it alone, with a channel of wide tokens from port 1 to port 2. -/
def Tests.vector (p : Proc) : State :=
  { Tests.linked (Tests.ported p) { newChan 1 0 0 8 0 true false (.proc 0 2) [.proc 0 1] with buffer := [] } with
    nets := [(0, { placeNet with rings := [{ members := [0] }] })] }

/-- An element of a register of one row after a vector word alone. -/
def Tests.elem (i : Instr) (p : Proc) (v z e : Nat) : Option (Nat × Bool) :=
  Tests.after (Nat × Bool) (exec i (Tests.one { p with geom := { lrows := 1, nbufs := 8, nregs := 24 } })) (fun q => (q.elem v z e, q.elemPsn v z e))

/-- Words that start in the placed process: one of each kind, with those of the first and the last register. -/
theorem witness_VectorIntegerWords : ∀ i ∈ [Instr.vadd (Tests.ex .i8) 0 1 23, .vaddImm (Tests.ex .u64) 23 1 0xFFFF, .vmad (Tests.ex .i32) 1 2 3 4,
    .vabs (Tests.ex .i16) 1 2, .vbcast (Tests.ex .f32) 1 2, .viota (Tests.ex .i32) 1 false, .vins false .f32 1 2 3, .vins false .f32 1 0 0],
    (Tests.one placeProc).starts placeProc i := by
  simp only [State.starts]; decide +kernel

theorem witness_VectorFloatWords : ∀ i ∈ [Instr.vfadd (Tests.ex .f32) 1 2 3, .vfmul { Tests.ex .f16 with cls := .lg } 1 2 3, .vfma { Tests.ex .bf16 with cls := .tp } 1 2 3 4,
    .vfscl (Tests.ex .f32) 1 2 3 true, .vfrcp (Tests.ex .f32) 1 2, .vfneg (Tests.ex .f16) 1 2], (Tests.one placeProc).starts placeProc i := by
  simp only [State.starts]; decide +kernel

theorem witness_VectorConversions : ∀ i ∈ [Instr.vcvt (Tests.ex .f32) 1 2 .i64 false .sr, .vcvt (Tests.ex .e4m3) 1 1 .f32 true .rne, .vcvtx (Tests.ex .e5m2) 1 2,
    .vmxup (Tests.ex .f32) 1 2 .rz, .vmxpk (Tests.ex .mx4) 1 1 .f32 .rne], (Tests.one placeProc).starts placeProc i := by
  simp only [State.starts]; decide +kernel

/-- A process with FP32 element 65 of v1 poisoned. -/
def Tests.poisoned : Proc := { placeProc with rowPoison := [(2, BitVec.ofNat 512 (2 ^ 260))] }

/-- No poisoned element, and a poisoned one with none before it in its groups; VEXT below, at and above VLMAX, and poisoned. -/
theorem witness_VectorMaskWords : (∀ i ∈ [Instr.vcmp (Tests.ex .i8) 0 1 2 .lt, .vfcmp (Tests.ex .f32) 23 1 2 .un, .vmxv (Tests.ex .mx4) 1 2, .vwhile (Tests.ex .i8) 1 2 3 true,
      .kand (Tests.ex .mx4) 1 2 3, .knot (Tests.ex .i8) 1 2, .vpsn (Tests.ex .i8) 1 2, .vpclr (Tests.ex .mx4) 1, .vpclr (Tests.ex .f32) 1,
      .kpop (Tests.ex .i8) 1 2, .kfirst (Tests.ex .i8) 1 2, .vext false .i32 1 2 3], (Tests.one placeProc).starts placeProc i)
    ∧ ((Tests.one Tests.poisoned).starts Tests.poisoned (.vcmp (Tests.ex .i32) 0 1 2 .lt) ∧ Tests.poisoned.elemPsn 2 4 65 = true
      ∧ (∀ j < 64, Tests.poisoned.elemPsn 2 4 j = false) ∧ Tests.poisoned.elemPsn 2 4 64 = false ∧ placeProc.elemPsn 2 4 65 = false)
    ∧ vlmax .i32 2 = 256 ∧ 255 < vlmax .i32 2 := by
  simp only [State.starts]; decide +kernel

theorem witness_PermutationWords : ∀ i ∈ [Instr.vmov (Tests.ex .mx4) 1 2, .vgathr (Tests.ex .i8) 1 2 3, .vperm (Tests.ex .mx4) 1 2 3, .vsldu (Tests.ex .i8) 1 2 3 0xFFFF,
    .vsldd (Tests.ex .f32) 1 2 3 0, .vcmpr (Tests.ex .f32) 1 2, .vexpd (Tests.ex .f32) 1 2, .viota (Tests.ex .u8) 1 true, .vbcastb (Tests.ex .i64) 1 2 .i8 10],
    (Tests.one placeProc).starts placeProc i := by
  simp only [State.starts]; decide +kernel

theorem witness_ReductionWords : ∀ i ∈ [Instr.vrsum (Tests.ex .i8) 1 2, .vrmax (Tests.ex .u64) 1 2, .vfrsum (Tests.ex .f32) 1 2, .vfrmin (Tests.ex .f16) 1 2,
    .vscan (Tests.ex .i32) 1 2 .max, .vfscan (Tests.ex .bf16) 1 2 .sum], (Tests.one placeProc).starts placeProc i := by
  simp only [State.starts]; decide +kernel

theorem test_vector_integer : Tests.elem (.vadd (Tests.ex .i64) 3 1 2) (Tests.rows [(1, 0x7FFFFFFFFFFFFFFF), (2, 1)] []) 3 8 0 = some (0x8000000000000000, false)
  ∧ Tests.elem (.vadds (Tests.ex .i64) 3 1 2) (Tests.rows [(1, 0x7FFFFFFFFFFFFFFF), (2, 1)] []) 3 8 0 = some (0x7FFFFFFFFFFFFFFF, false)
  ∧ Tests.elem (.vsubs (Tests.ex .u64) 3 1 2) (Tests.rows [(2, 1)] []) 3 8 0 = some (0, false)
  ∧ Tests.elem (.vmulh (Tests.ex .i32) 3 1 2) (Tests.rows [(1, 0x80000000), (2, 0x80000000)] []) 3 4 0 = some (0x40000000, false)
  ∧ Tests.elem (.vsraImm (Tests.ex .i32) 3 1 33) (Tests.rows [(1, 0x80000000)] []) 3 4 0 = some (0xC0000000, false)
  ∧ Tests.elem (.vsubImm (Tests.ex .u64) 3 1 0xFFFF) (Tests.rows [] []) 3 8 63 = some (1, false) := by decide +kernel

/-- R202: a lane error in encore mode, in element 70 of the second group of an addition, once and again. -/
def Tests.struck (again : Bool) : Res :=
  let p := { placeProc with encoreEn := true, rows := [(2, BitVec.ofNat 4096 (7 + 5 * 2 ^ 2048)), (3, BitVec.ofNat 4096 9)] }
  match (Tests.one p).performTurn (.laneError 0 { member := 0, group := 1, diff := [70], again }) with
  | .next s => exec (.vadd (Tests.ex .i32) 3 1 1) s
  | r => r

theorem test_encore : Tests.after (Word × Word × List Nat × List Bool) (Tests.struck true) (fun p => (p.trap.tcause, p.trap.telem,
      [0, 64, 128].map (p.elem 6 4), [64, 70].map (p.elemPsn 6 4))) = some (0x142, 64, [14, 10, 0], [false, true])
  ∧ Tests.after (BitVec 32 × List Nat × Bool) (Tests.struck false) (fun p => (p.replays, [0, 64, 128].map (p.elem 6 4), p.elemPsn 6 4 70))
    = some (1, [14, 10, 18], false) := by decide +kernel

/-- An inactive element keeps its value and poison, and an active one takes those of its operand (R195, R208). -/
theorem test_vector_mask : let p := { Tests.rows [(1, BitVec.ofNat 4096 (2 ^ 64)), (3, 0x5555)] [(1, 2)] with rowPoison := [(1, 0x100), (3, 0xFF)] }
  Tests.elem (.vneg { Tests.ex .i64 with km := 1 } 3 1) p 3 8 0 = some (0x5555, true)
    ∧ Tests.elem (.vneg { Tests.ex .i64 with km := 1 } 3 1) p 3 8 1 = some (0xFFFFFFFFFFFFFFFF, true) := by decide +kernel

theorem test_vector_float : Tests.elem (.vfmul (Tests.ex .f32) 3 1 2) (Tests.rows [(1, 0x40400000), (2, 0x40000000)] []) 3 4 0 = some (0x40C00000, false)
  ∧ Tests.elem (.vfneg (Tests.ex .f32) 3 1) (Tests.rows [] []) 3 4 127 = some (0x80000000, false)
  ∧ Tests.elem (.vfrcp (Tests.ex .f32) 3 1) (Tests.rows [(1, 0x40000000)] []) 3 4 0 = some (0x3F000000, false) := by decide +kernel

theorem test_vector_convert : Tests.elem (.vcvt (Tests.ex .i32) 3 1 .f32 false .rz) (Tests.rows [(1, 0x4F800000)] []) 3 4 0 = some (0x7FFFFFFF, false)
  ∧ Tests.elem (.vcvt (Tests.ex .f32) 3 1 .i64 false .rne) (Tests.rows [(1, 0xFFFFFFFFFFFFFFFF)] []) 3 4 0 = some (0xBF800000, false) := by decide +kernel

/-- Bits 0, 1, 63 and 64 of a mask after a word; VLMAX is 64. -/
def Tests.mask (i : Instr) (p : Proc) (k : KReg) : Option (List Bool) :=
  Tests.after (List Bool) (exec i (Tests.one { p with geom := { lrows := 1, nbufs := 8, nregs := 24 } })) (fun q => [0, 1, 63, 64].map (fun e => q.maskBit k e))

theorem test_vector_compare : Tests.mask (.vcmp (Tests.ex .i64) 2 1 0 .lt) (Tests.rows [(1, 0xFFFFFFFFFFFFFFFF)] []) 2 = some [true, false, false, false]
  ∧ Tests.mask (.vcmp (Tests.ex .u64) 2 1 0 .lt) (Tests.rows [(1, 0xFFFFFFFFFFFFFFFF)] []) 2 = some [false, false, false, false]
  ∧ Tests.mask (.knot (Tests.ex .i64) 2 1) (Tests.rows [] [(1, 3)]) 2 = some [false, false, true, false]
  ∧ Tests.mask (.vwhile (Tests.ex .i64) 2 2 1 true) (Tests.rows [] []) 2 = some [true, true, false, false] := by decide +kernel

theorem test_vector_move : Tests.elem (.vgathr (Tests.ex .i64) 3 1 2) (Tests.rows [(1, BitVec.ofNat 4096 (0x2222 * 2 ^ 64)), (2, BitVec.ofNat 4096 (64 * 2 ^ 64 + 1))] []) 3 8 0
      = some (0x2222, false)
  ∧ Tests.elem (.vgathr (Tests.ex .i64) 3 1 2) (Tests.rows [(1, 0x1111), (2, BitVec.ofNat 4096 (64 * 2 ^ 64 + 1))] []) 3 8 1 = some (0, false)
  ∧ Tests.elem (.vsldu (Tests.ex .i64) 3 1 2 1) (Tests.rows [(1, 0x11), (2, BitVec.ofNat 4096 (0x77 * 2 ^ 4032))] []) 3 8 0 = some (0x77, false)
  ∧ Tests.elem (.vsldu (Tests.ex .i64) 3 1 2 1) (Tests.rows [(1, 0x11)] []) 3 8 1 = some (0x11, false)
  ∧ Tests.elem (.vcmpr { Tests.ex .i64 with km := 1 } 3 1) (Tests.rows [(1, BitVec.ofNat 4096 (0x43 * 2 ^ 64))] [(1, 2)]) 3 8 0 = some (0x43, false)
  ∧ Tests.elem (.vbcast (Tests.ex .i64) 3 1) (Tests.rows [] []) 3 8 63 = some (3, false) := by decide +kernel

theorem test_vector_reduce : Tests.elem (.vrsum (Tests.ex .i64) 3 1) (Tests.rows [(1, BitVec.ofNat 4096 (0x7F * 2 ^ 64 + 1))] []) 3 8 0 = some (0x80, false)
  ∧ Tests.elem (.vrmax (Tests.ex .i64) 3 1) (Tests.rows [(1, 0xFFFFFFFFFFFFFFFF)] []) 3 8 0 = some (0, false)
  ∧ Tests.elem (.vrmax (Tests.ex .u64) 3 1) (Tests.rows [(1, 0xFFFFFFFFFFFFFFFF)] []) 3 8 0 = some (0xFFFFFFFFFFFFFFFF, false)
  ∧ Tests.elem (.vscan (Tests.ex .i64) 3 1 .sum) (Tests.rows [(1, BitVec.ofNat 4096 (2 * 2 ^ 128 + 2 ^ 64 + 5))] []) 3 8 2 = some (8, false) := by decide +kernel

/-! ## Vector words that reach outside the registers -/

/-- A header of FP32 under k1. -/
def Tests.k1 : VHdr := { Tests.ex .f32 with km := 1 }

/-- A process with element 65 active under k1, and g1 the base of an access. -/
def Tests.lane (a : Word) : Proc := { placeProc with masks := [(1, 2 ^ 65)], g := placeProc.g.set 1 a }

/-- A page of 64 KiB, readable and writable, in the TLB of the tile. -/
def Tests.paged : Tile := { placeTile with tlb := [{ vpage := placeAddr.toNat, leaf := .page 65536 true true false (.phys 65536) }] }

theorem Tests.units_beyond (o : MemOp) (c : VCtx) (p : Proc) (k : Nat) (h : o.h.et ≠ .mx4) (hk : o.range c.lrows ≤ 64 * k) : o.unitsOf c p k = [] := by
  simp only [MemOp.unitsOf, groupUnits, if_neg h]
  refine List.filter_eq_nil_iff.mpr fun u hu => ?_
  obtain ⟨a, -, rfl⟩ := List.mem_map.mp hu
  simp only [Bool.and_eq_true, decide_eq_true_eq, not_and]
  omega

/-- A load and a first-fault load of FP32 from the first byte of the region: every unit active, aligned and inside it. -/
theorem witness_VectorLoadWords : ∀ i ∈ [Instr.vld (Tests.ex .f32) .relaxed 2 1 0, .vldff (Tests.ex .i64) .relaxed 23 1 0], ∃ o, memOp i = some o
    ∧ (o.kind = .load ∨ o.kind = .firstFault) ∧ (Tests.one placeProc).starts placeProc i
    ∧ (((Tests.one placeProc).tile 0).errors = [] ∧ ∀ k < 4, (((Tests.one placeProc).tile 0).slice k).st = .normal)
    ∧ ((Tests.one placeProc).tile 0).pendingStores 0 = [] ∧ o.idx = none
    ∧ ∀ u < o.range 2, o.idxPsn placeProc.wordCtx placeProc u = false ∧ (o.addr placeProc.wordCtx placeProc u).toNat % o.z = 0
      ∧ inDevice (o.addr placeProc.wordCtx placeProc u) = false ∧ placeProc.desc.spadCheck (o.addr placeProc.wordCtx placeProc u) o.z = none := by
  intro i hi
  simp only [List.mem_cons, List.not_mem_nil, or_false] at hi
  rcases hi with rfl | rfl
  · refine ⟨_, rfl, ?_⟩; simp only [State.starts]; decide +kernel
  · refine ⟨_, rfl, ?_⟩; simp only [State.starts]; decide +kernel

/-- Index form, for the lists below. -/
def Tests.op (i : Instr) : MemOp := (memOp i).getD ⟨.load, Tests.k1, .relaxed, 0, none, 0, none, 0, 0⟩

/-- The words of `witness_VectorMemoryWords` act on unit 65 of group 1 alone. -/
theorem witness_VectorMemoryWords_units (a : Word) (ha : a ∈ [0, placeAddr]) (i : Instr) (hi : i ∈ [Instr.vst Tests.k1 .relaxed 2 1 0, .vld Tests.k1 .relaxed 2 1 0,
    .vamo Tests.k1 .relaxed .add .w32 false 0 3 1 4, .vstx Tests.k1 .relaxed .w32 2 3 1 0]) (k : Nat) :
    (Tests.op i).unitsOf (Tests.lane a).wordCtx (Tests.lane a) k = if k = 1 then [65] else [] := by
  by_cases hk : 4 ≤ k
  · rw [if_neg (by omega)]
    simp only [List.mem_cons, List.not_mem_nil, or_false] at hi
    rcases hi with rfl | rfl | rfl | rfl <;>
      exact Tests.units_beyond _ _ _ _ (by decide) (by simp only [show (Tests.lane a).wordCtx.lrows = 2 from rfl]; exact Nat.le_trans (by decide) (Nat.mul_le_mul_left 64 hk))
  · have h : k = 0 ∨ k = 1 ∨ k = 2 ∨ k = 3 := by omega
    simp only [List.mem_cons, List.not_mem_nil, or_false] at hi
    simp only [List.mem_cons, List.not_mem_nil, or_false] at ha
    rcases ha with rfl | rfl <;> rcases hi with rfl | rfl | rfl | rfl <;> rcases h with rfl | rfl | rfl | rfl <;> decide +kernel

/-- Where that unit's access stands: poisoned index, misaligned, in the scratchpad and outside the region, in the device
window and outside it, with its page in the TLB and with none. -/
theorem witness_VectorMemoryWords : let st := Instr.vst Tests.k1 .relaxed 2 1 0
  let am := Instr.vamo Tests.k1 .relaxed .add .w32 false 0 3 1 4
  let ix := Instr.vstx Tests.k1 .relaxed .w32 2 3 1 0
  let at_ := fun (a : Word) (i : Instr) => (Tests.op i).addr (Tests.lane a).wordCtx (Tests.lane a) 65
  let bad := { Tests.lane 0 with rowPoison := [(6, BitVec.ofNat 512 (2 ^ 260))] }
  (∀ i ∈ [st, am, ix], (Instr.wf i = true ∧ (Tests.one (Tests.lane 0)).startCause 0 (Tests.lane 0) (Tests.lane 0).snapNow [i] = none)
      ∧ memOp i = some (Tests.op i) ∧ 1 < groupsOf (Tests.op i).h.et 2)
    ∧ ((Tests.op ix).idxPsn bad.wordCtx bad 65 = true ∧ (Tests.op ix).consumes = true ∧ (Tests.op ix).idxPsn (Tests.lane 0).wordCtx (Tests.lane 0) 65 = false)
    ∧ ((at_ 1 st).toNat % 4 ≠ 0 ∧ (at_ 0 st).toNat % 4 = 0 ∧ inDevice (at_ 0 st) = false ∧ inDevice (at_ 0 am) = false ∧ (Tests.op am).atomic = true
      ∧ (Tests.op st).atomic = false ∧ placeDesc.spadCheck (at_ 4096 st) 4 = some 0x23 ∧ placeDesc.spadCheck (at_ 0 st) 4 = none ∧ (at_ 0 st).toNat % 64 + 4 ≤ 64)
    ∧ (inDevice (at_ 0x0018000000000000 st) = true ∧ canonDev (at_ 0x0018000000000000 st) = false ∧ inDevice (at_ placeAddr st) = true
      ∧ canonDev (at_ placeAddr st) = true)
    ∧ ((Tests.one (Tests.lane 0)).tileTranslate 0 0 (at_ placeAddr st).toNat kWrite).toOption = none
    ∧ ((Tests.tiled (Tests.lane 0) Tests.paged).tileTranslate 0 0 (at_ placeAddr st).toNat kWrite).toOption = some (.phys (65536 + 260))
    ∧ (let ends := fun (a : Word) => [at_ a st, at_ a st + 3]
      (Tests.one (Tests.lane 0)).unknown (Tests.lane 0) (ends 0) = [] ∧ (Tests.one (Tests.lane 0)).unknown (Tests.lane 0) (ends 0x0018000000000000) = []
        ∧ (Tests.tiled (Tests.lane 0) Tests.paged).unknown (Tests.lane 0) (ends placeAddr) = [] ∧ Tests.paged.denied = []
        ∧ (Tests.tiled (Tests.lane 0) { placeTile with tlb := [] }).unknown (Tests.lane 0) (ends placeAddr) ≠ [] ∧ placeTile.misses.length < 64) := by
  decide +kernel

theorem test_vector_memory : (match exec (.vst Tests.k1 .relaxed 2 1 0) (Tests.one { Tests.lane 0 with rows := [(4, BitVec.ofNat 4096 (0xABCD * 2 ^ 2080))] }) with
    | .next t => ((t.tile 0).fifo 0 0).map (fun e => (e.line, e.enable, e.bytes))
    | _ => []) = [(256, 0xF0, BitVec.ofNat 512 (0xABCD * 2 ^ 32))]
  ∧ (match exec (.vst Tests.k1 .relaxed 2 1 0) (Tests.tiled { Tests.lane placeAddr with rows := [(4, BitVec.ofNat 4096 (0xABCD * 2 ^ 2080))] } Tests.paged) with
    | .next t => t.flight.map (fun r => (r.pa, r.kind))
    | _ => []) = [(65796, .write [0xCD, 0xAB, 0, 0] [false, false, false, false])]
  ∧ Tests.cause (exec (.vamo Tests.k1 .relaxed .add .w32 false 0 3 1 4) (Tests.one (Tests.lane 0))) = some 0x170 := by decide +kernel

/-- A wide token. -/
def Tests.wide (w : Nat) (tag : Byte) : Token := { data := leBytes 64 w, tag, poison := List.replicate 8 false }

/-- A channel of wide tokens with some in its buffer. -/
def Tests.wideChan (b : List Token) : Chan :=
  { newChan 1 0 0 32 0 true false (.proc 0 2) [.proc 0 1] with buffer := b.map (fun t => (0, t)), written := BitVec.ofNat 32 b.length }

theorem witness_VectorChannelWords : let p := Tests.ported (Tests.lane 0)
  let x := Tests.wideChan [Tests.wide 7 0]
  let s := Tests.linked p x
  (∀ i ∈ [Instr.vsend Tests.k1 2 1 127, .vrecv Tests.k1 2 2], i.wf = true ∧ beyondCount p.geom.nregs i = false ∧ s.startCause s.cur p p.snapNow [i] = none)
    ∧ s.proc? s.cur = some p ∧ p.port 1 = some (5, true) ∧ p.port 2 = some (5, false) ∧ s.chan? 5 = some x ∧ s.consumerRetired x = false
    ∧ p.triggered 2 = false ∧ x.prodOf (.proc 0 1) = some 0
    ∧ ((List.range (groupsOf .f32 2)).flatMap (p.wordCtx.liveChunks Tests.k1 p)).length = 1 ∧ 1 ≤ x.buffer.length ∧ (x.prods[0]?).map (·.credits) = some 32
    ∧ (∀ t ∈ (x.buffer.take 1).map (·.2), t.tag = 0) ∧ ((Tests.wideChan [Tests.wide 7 128]).buffer.take 1).map (·.2.tag) = [128]
    ∧ placeTile.denied = [] ∧ p.launches.any (fun l => l.chan == 5 && l.prod == 0) = false
    ∧ { p with launches := [{ chan := 5, prod := 0, token := Tests.wide 7 0, after := 0 }] }.launches.any (fun l => l.chan == 5 && l.prod == 0) = true := by
  decide +kernel

/-- Element 65 lies in chunk 4 of FP32, its second word. -/
theorem test_vector_channel : Tests.after (Nat × Nat) (exec (.vrecv Tests.k1 2 2) (Tests.linked (Tests.ported (Tests.lane 0))
      (Tests.wideChan [Tests.wide (0xAB * 2 ^ 32) 0]))) (fun p => (p.elem 4 4 65, p.elem 4 4 64)) = some (0xAB, 0)
  ∧ Tests.cause (exec (.vrecv Tests.k1 2 2) (Tests.linked (Tests.ported (Tests.lane 0)) (Tests.wideChan [Tests.wide 1 1]))) = some 0x131
  ∧ Tests.cause (exec (.vsend Tests.k1 2 0 1) (Tests.linked (Tests.ported (Tests.lane 0)) (Tests.wideChan []))) = some 0x130 := by decide +kernel

/-- The matrix words start in the placed process, whose matrix unit holds nothing; the lines MSAVE and MLOAD name are mapped. -/
theorem witness_MatrixWords : (∀ i ∈ [Instr.mzero false 3, .mopa (Tests.ex .f16) 2 3 1, .mops (Tests.ex .i8) 0 23 0, .mread (Tests.ex .f32) 0 1 63 .rz,
      .mwrite (Tests.ex .w56) 0 1 0, .msaveAcc false .relaxed 0 1 0, .mloadAcc false .device 3 1 0, .msaveLatch false .relaxed 1 true 1 0,
      .mloadLatch false .relaxed 0 false 1 0], (Tests.one placeProc).starts placeProc i)
    ∧ ((Tests.one placeProc).tile 0).matrix = [] ∧ (Tests.one placeProc).runs placeProc = true
    ∧ (Tests.lane placeAddr).wordCtx.matAddr 1 0 = placeAddr ∧ placeAddr.toNat % 64 = 0
    ∧ ∀ j < 448, inDevice (placeAddr + BitVec.ofNat 64 (64 * j)) = true ∧ canonDev (placeAddr + BitVec.ofNat 64 (64 * j)) = true
      ∧ ((Tests.tiled placeProc Tests.paged).tileTranslate 0 0 (placeAddr + BitVec.ofNat 64 (64 * j)).toNat kWrite).toOption = some (.phys (65536 + 64 * j))
      ∧ (Tests.tiled placeProc Tests.paged).unknown placeProc [placeAddr + BitVec.ofNat 64 (64 * j)] = [] := by
  simp only [State.starts]; decide +kernel

/-- MZERO through its start by the matrix unit: the tile named is clear and another is not (R285). -/
theorem test_matrix : (match exec (.mzero false 1) (Tests.one { placeProc with acc := [(5, 9), (4096, 7)] }) with
    | .next t => Tests.after (Nat × Nat) (exec (.matrixMemberStart 0) t) (fun p => ((p.accAt 5).1, (p.accAt 4096).1))
    | _ => none) = some (9, 0)
  ∧ (match exec (.mwrite { Tests.ex .i32 with km := 1 } 0 1 1) (Tests.one { Tests.lane 0 with rows := [(2, BitVec.ofNat 4096 (0xFFFFFFFF * 2 ^ 2080))] }) with
    | .next t => Tests.after (Nat × Bool) (exec (.matrixMemberStart 0) t) (fun p => p.accAt (accKey 0 2 1))
    | _ => none) = some (2 ^ 56 - 1, false) := by decide +kernel

/-! ## Between the words: the vector unit -/

/-- The bits of a vector word. -/
def Tests.vword (i : Instr) : Nat := match encode i with
  | .vector w => w.toNat
  | _ => 0

/-- The machine with a vector word as the only block of the placed process. -/
def Tests.block (i : Instr) : State := State.reset.withFetchWord 64 (Tests.vword i)

/-- The entry of a block at the placed address. -/
def Tests.entry (checking : Bool) : Entry :=
  { placeProc.newEntry .block placeAddr with sig := { checking, want := 0, crc := 0 } }

theorem witness_BlockAndLoopTurns_words : let p := { placeProc with queue := [Tests.entry false] }
  let q := { placeProc with queue := [Tests.entry true] }
  let r := Tests.vector placeProc
  (Tests.one p).proc? (Tests.one p).cur = some p ∧ p.currentEntry = some (Tests.entry false) ∧ (Tests.entry false).sig.checking = false
    ∧ q.currentEntry = some (Tests.entry true) ∧ (Tests.entry true).sig.checking = true
    ∧ r.startCause r.cur (Tests.ported placeProc) (Tests.ported placeProc).snapNow [.mring 0] = none
    ∧ (Tests.one placeProc).startCause 0 placeProc placeProc.snapNow [.mring 0] = some 0x5A := by decide +kernel

/-- Two processes of a ring, each at an MRING, with a byte of latch 0 of the second. -/
def Tests.ring : State :=
  let s := Tests.block (.mring 0)
  let p := { placeVector with ringWait := some 0 }
  { s with procs := [(0, p), (1, { p with slot := 1, latch := [(7, 0xAB)] })], nets := [(0, { placeNet with procs := [0, 1], rings := [{ members := [0, 1] }] })] }

theorem witness_BlockAndLoopTurns_ring : Tests.ring.rings[0]? = some [0, 1] ∧ ([0, 1] : List Nat).Nodup
  ∧ (∀ k ∈ [0, 1], ∃ q, Tests.ring.proc? k = some q ∧ q.ringWait = some (0 : BitVec 1).toNat ∧ Tests.ring.runs q = true ∧ (Tests.ring.ringOwner q).isSome = true)
  ∧ (let cv := placeProc.newConvoy 0 false placeAddr [.mring 0] placeProc.snapNow
     { placeProc with convoys := [cv] }.convoys = [cv] ∧ cv.members = [.mring 0] ∧ cv.stopped = false) := by
  refine ⟨by decide +kernel, by decide, ?_, by decide +kernel⟩
  intro k hk
  simp only [List.mem_cons, List.not_mem_nil, or_false] at hk
  rcases hk with rfl | rfl <;> exact ⟨_, rfl, by decide +kernel, by decide +kernel, by decide +kernel⟩

/-- After the round process 0 has the byte of process 1. -/
theorem test_ring : (match exec (.mringRoundBegin 0 0) Tests.ring with
    | .next t => ((t.proc? 0).map (fun p => p.latchByte 0 7), (t.proc? 1).map (fun p => p.latchByte 0 7))
    | _ => (none, none)) = (some 0xAB, some 0) := by decide +kernel

/-- A loop entry at an address, and the task of its body. -/
def Tests.loop (trip : Nat) (a : Word) : Entry := placeProc.newEntry (.loop trip 0 1 2 []) a

/-- A task over that body. -/
def Tests.task (trip iter : Nat) (running : Bool) : Task :=
  { id := 0, trip, iter, step := 0, wait := 1, set := 2, strip0 := [], running, captured := false
    body := { Tests.loop trip placeAddr with stopped := running } }

theorem witness_BlockAndLoopTurns_loop : let s := Tests.block .vstop
  (∀ e ∈ [Tests.loop 0 placeAddr, Tests.loop 3 placeAddr, Tests.loop 3 (placeAddr + 4)], { placeProc with queue := [e] }.currentEntry = some e
      ∧ s.runs { placeProc with queue := [e] } = true)
    ∧ (s.loopBody placeProc (Tests.loop 3 (placeAddr + 4))).toOption = none ∧ ((s.loopBody placeProc (Tests.loop 3 placeAddr)).toOption).map List.length = some 1
    ∧ ((s.tile 0).loops.length < 4 ∧ ((s.tile 0).loops.map (·.2.2)).sum + 1 ≤ 128)
    ∧ (let t := Tests.task 2 0 false
      t.running = false ∧ t.iter < t.trip ∧ { placeTile with events := 1 }.evTest (placeProc.tileMask t.wait) = true
        ∧ s.runs { placeProc with tasks := [t] } = true)
    ∧ ((Tests.task 2 0 true).running = true ∧ (Tests.task 2 0 true).body.stopped = true ∧ placeProc.convoys = [] ∧ 0 + 1 < (Tests.task 2 0 true).trip
      ∧ (Tests.task 2 1 true).trip ≤ 1 + 1 ∧ (Tests.task 2 0 true).set ≠ 0 ∧ ((Tests.one placeProc).tile 0).vecDrained 0 = true
      ∧ (Tests.storing true).vecDrained 0 = false)
    ∧ s.unknown placeProc (s.bodyAddrs placeProc placeAddr 32) = []
    ∧ (Tests.tiled placeProc { placeTile with tlb := [] }).unknown placeProc
        ((Tests.tiled placeProc { placeTile with tlb := [] }).bodyAddrs placeProc placeAddr 32) ≠ [] := by decide +kernel

theorem test_loop : Tests.after (List (Nat × Nat)) (exec (.loopRegister 0) { Tests.block .vstop with procs := [(0, { placeProc with queue := [Tests.loop 3 placeAddr] })] })
      (fun p => p.tasks.map (fun t => (t.trip, t.iter))) = some [(3, 0)]
  ∧ (match exec (.iterationStart 0 0) (Tests.tiled { placeProc with tasks := [Tests.task 2 0 false] } { placeTile with events := 5 }) with
    | .next t => (t.tile 0).events
    | _ => 0) = 4
  ∧ (match exec (.iterationRetire 0 0) (Tests.one { placeProc with tasks := [Tests.task 2 0 true] }) with
    | .next t => ((t.tile 0).events, (t.proc? 0).map (fun p => p.tasks.map (·.iter)))
    | _ => (0, none)) = (2, some [1]) := by decide +kernel

/-- A convoy of one load that waits for the reply of its unit 65. -/
def Tests.loading : Convoy :=
  { (Tests.lane placeAddr).newConvoy 9 false placeAddr [.vld Tests.k1 .relaxed 2 1 0] (Tests.lane placeAddr).snapNow with
    group := 1, sent := true, reqs := [{ id := 4, group := 1, member := 0, unit := 65, piece := 0, store := false, remote := false, reply := none }] }

/-- A convoy that has finished and writes g6. -/
def Tests.finished (l : List Instr) : Convoy := { placeProc.newConvoy 9 false placeAddr l placeProc.snapNow with finished := true, gw := [(6, 77)] }

theorem witness_ConvoyTurns : let s := Tests.block (.mzero false 1)
  let p := placeVector
  let e := placeProc.newEntry .block placeAddr
  (Tests.one placeProc).tileMoves 0 = [] ∧ s.proc? 0 = some p
    ∧ (s.tileMoves 0).filter (fun x => decide (p.eff ≤ x.1)) = [(p.eff, 0, .start e.id false)] ∧ p.ownerEntry e.id false = some e
    ∧ (s.nextConvoy p e).toOption = some ([BitVec.ofNat 64 (Tests.vword (.mzero false 1))], [.mzero false 1])
    ∧ (e.sig.words [BitVec.ofNat 64 (Tests.vword (.mzero false 1))]).2 = true ∧ s.startCause 0 p e.snap [.mzero false 1] = none
    ∧ [Instr.mzero false 1].any isMatrix = true ∧ s.unknown p (s.convoyWords p e) = [] ∧ s.memErrors = [] := by decide +kernel

theorem witness_ConvoyTurns_reply : let p := { Tests.lane placeAddr with convoys := [Tests.loading] }
  let s := { Tests.tiled p Tests.paged with replies := [Tests.reply 4 [1, 2, 3, 4]] }
  let o := Tests.op (.vld Tests.k1 .relaxed 2 1 0)
  let a := o.addr (p.ctxOf Tests.loading) p 65
  s.proc? 0 = some p ∧ memOp (.vld Tests.k1 .relaxed 2 1 0) = some o ∧ o.kind = .load ∧ Tests.loading.finished = false ∧ Tests.loading.matrix = false
    ∧ Tests.loading.member = 0 ∧ Tests.loading.acks = [] ∧ Tests.loading.group < groupsOf .f32 2 ∧ o.unitsOf (p.ctxOf Tests.loading) p 1 = [65]
    ∧ o.idxPsn (p.ctxOf Tests.loading) p 65 = false ∧ a.toNat % o.z = 0 ∧ inDevice a = true ∧ canonDev a = true ∧ a.toNat % 64 + o.z ≤ 64
    ∧ (s.tileTranslate 0 0 a.toNat kRead).toOption = some (.phys (65536 + 260)) ∧ s.unknown p [a, a + 3] = [] ∧ Tests.loading.held = []
    ∧ Tests.loading.strike = none := by decide +kernel

theorem witness_ConvoyTurns_retire : let cv := Tests.finished [.kpop (Tests.ex .i8) 6 1]
  let mv := { Tests.finished [.mzero false 1] with gw := [] }
  let p := { placeProc with convoys := [cv], pending := [(6, 9)] }
  p.convoy? 0 = some cv ∧ cv.retirable = true ∧ cv.task = false ∧ cv.matrix = false ∧ (∀ sl, Instr.mring sl ∉ cv.members)
    ∧ mv.matrix = true ∧ (Tests.tiled { placeProc with convoys := [mv] } { placeTile with matrix := [(0, 0)] }).matrixHead 0
      = some (0, { placeProc with convoys := [mv] }, mv) := by decide +kernel

theorem test_convoy : (match exec (.vectorMemoryReply 0 0) { Tests.tiled { Tests.lane placeAddr with convoys := [Tests.loading] } Tests.paged with
      replies := [Tests.reply 4 [1, 2, 3, 4]] } with
    | .next t => (t.proc? 0).map (fun p => (p.elem 4 4 65, p.elem 4 4 64))
    | _ => none) = some (0x04030201, 0)
  ∧ Tests.reg (exec (.convoyRetire 0 0) (Tests.one { placeProc with convoys := [Tests.finished [.kpop (Tests.ex .i8) 6 1]], pending := [(6, 9)] })) 6 = some 77
  ∧ Tests.after (List (List Instr)) (exec (.convoyStart 0) (Tests.block (.mzero false 1))) (fun p => p.convoys.map (·.members)) = some [[.mzero false 1]] := by
  decide +kernel

/-! ## Between the words: memory, scratchpad -/

/-- A request of process 0. -/
def Tests.req (pa : Nat) (kind : ReqKind) : Req := { id := 4, src := .proc 0, pa, kind, prio := 0, age := 0 }

/-- A walk of a page of tenant 0 for tile 0. -/
def Tests.walk (result : Option Leaf) : Walk :=
  { tenant := 0, vpage := pageOf placeAddr.toNat, tiles := [0], prio := 0, unit := none, table := 0, level := 1, run := none, again := false, result }

/-- The machine of a process, with the walk under way on die 0. -/
def Tests.walking (p : Proc) (result : Option Leaf) : State :=
  { Tests.tiled p { placeTile with tlb := [], misses := [pageOf placeAddr.toNat], wanted := [pageOf placeAddr.toNat] } with
    dies := (Vector.replicate 4 Die.init).set 0 { walks := [Tests.walk result], cache := [] } }

/-- A walk whose unit 2 reads an entry of the second page of a table, and the machine with it. -/
def Tests.entryWalk (run : Option Nat) (level : Nat) : Walk :=
  { Tests.walk none with vpage := pageOf placeAddr.toNat + 1, unit := some 2, table := 65536, level, run }

def Tests.atEntry (run : Option Nat) (level : Nat) : State :=
  { Tests.one placeProc with dies := (Vector.replicate 4 Die.init).set 0 { walks := [Tests.entryWalk run level], cache := [] } }

/-- The entry read. -/
def Tests.entryRead (e : Nat) (psn : Bool) : Reply :=
  { id := 4, src := .walk 0 2, bytes := leBytes 8 e, poison := List.replicate 8 psn, cause := none, ok := true, flags := Flags.none }

/-- A load of device memory that waits for that walk. -/
def Tests.missing : Proc := { Tests.parked (Tests.proc [(2, placeAddr)]) .memoryReply (.ld .d .relaxed 1 2 8) with pend := some (.walk (placeAddr + 8).toNat kRead) }

/-- The same once its request has been sent. -/
def Tests.waiting : Proc := { Tests.missing with pend := some (.sent 4) }

theorem witness_MemoryTurns : let s := { Tests.one placeProc with queued := [Tests.req 64 (.read 8)] }
  s.memErrors = [] ∧ s.queued = [Tests.req 64 (.read 8)] ∧ (Tests.req 64 (.read 8)).src = .proc 0 ∧ serverOf 64 = 0
    ∧ (State.reset.poisonAt 64 8).contains true = false ∧ ({ State.reset with memPoison := [8] }.poisonAt 64 8).contains true = true
    ∧ leNat (memBytes State.reset.mem 64 8) ≠ 1 ∧ (∀ h ∈ [0, 1], mget State.reset.memErrors h ≠ some true) := by decide +kernel

theorem witness_MemoryTurns_walk : let leaf := Leaf.page 4096 true false true (.phys 0)
  (vget (Tests.walking Tests.missing none).dies 0 Die.init = { walks := [Tests.walk none], cache := [] } ∧ (Tests.walk none).result = none
    ∧ (Tests.walk none).unit = none ∧ mget (Tests.walking Tests.missing none).tenants 0 = some placeTenant)
  ∧ (let s := { Tests.atEntry none 1 with replies := [Tests.entryRead 0x10001 false] }
    vget s.dies 0 Die.init = { walks := [Tests.entryWalk none 1], cache := [] } ∧ s.replies = [Tests.entryRead 0x10001 false]
      ∧ (Tests.entryRead 0x10001 false).src = .walk 0 2 ∧ (Tests.entryRead 0 false).poison.any id = false ∧ (Tests.entryRead 0 true).poison.any id = true
      ∧ readPte 0 1 = .fault 0x20 ∧ readPte 0x10001 1 = .pointer 65536 ∧ readPte 7 4 = .leaf 0 (.page 4096 true false false (.phys 0))
      ∧ readPte 0x107 4 = .leaf 1 (.page 16384 true false false (.phys 0)) ∧ levelIndex ((Tests.entryWalk none 4).vpage * 4096) 4 = 1
      ∧ runLeaves 0 = 1 ∧ runLeaves 1 = 4 ∧ (Tests.entryWalk (some 1) 4).run = some 1)
  ∧ (let s := Tests.walking Tests.missing (some leaf)
    (vget s.dies 0 Die.init).walks = [Tests.walk (some leaf)] ∧ s.proc? 0 = some Tests.missing ∧ s.waitingMiss 0 = [0]
      ∧ s.waitingFor 0 (Tests.walk none).vpage = [0] ∧ Tests.missing.park.isSome = true ∧ (Tests.missing.accessOf (.ld .d .relaxed 1 2 8)).isSome = true
      ∧ (leaf.access (placeAddr + 8).toNat kRead).toOption = some (.phys 8) ∧ (leaf.access (placeAddr + 8).toNat kWrite).toOption = none)
  ∧ (let s := { Tests.one Tests.waiting with replies := [Tests.reply 4 [1, 2, 3, 4, 5, 6, 7, 8]] }
    s.proc? 0 = some Tests.waiting ∧ Tests.waiting.st ≠ .trapped ∧ recordBytes (.ld .d .relaxed 1 2 8) = 0
      ∧ ((Tests.waiting.accessOf (.ld .d .relaxed 1 2 8)).map (·.kind)) = some kRead ∧ (Tests.reply 4 [1]).cause = none
      ∧ (Tests.reply 4 [1]).poison.contains true = false ∧ { Tests.reply 4 [1] with poison := [true] }.poison.contains true = true) := by decide +kernel

theorem test_server : (match exec (.serverAccess 0) { State.reset with queued := [Tests.req 64 (.write [9] [true])] } with
    | .next t => (memByte t.mem 64, t.memPoison, t.replies.map (·.id))
    | _ => (0, [], [])) = (9, [8], [4])
  ∧ (match exec (.serverAccess 0) { State.reset with queued := [Tests.req 64 (.amo .add 4 0xFFFFFFFF 0)], mem := [⟨64, 2⟩] } with
    | .next t => (memBytes t.mem 64 4, t.replies.map (·.bytes))
    | _ => ([], [])) = ([1, 0, 0, 0], [[2, 0, 0, 0]]) := by decide +kernel

/-- R310: the second leaf of a run of four is read by its first, whose table stands at 65536. -/
theorem test_walk_run : (match exec (.walk 0) { Tests.atEntry none 4 with replies := [Tests.entryRead 0x107 false] } with
    | .next t => (t.flight.map (·.pa), (vget t.dies 0 Die.init).walks.map (·.run))
    | _ => ([], [])) = ([65536], [some 1]) := by decide +kernel

theorem test_walk : Tests.after PState (exec (.memoryReply 0) { Tests.one Tests.waiting with replies := [{ Tests.reply 4 [1] with poison := [true] }] }) (·.st) = some .trapped
  ∧ (match exec (.walkComplete 0) (Tests.walking Tests.missing (some (.page 4096 true false true (.phys 0)))) with
    | .next t => (t.flight.map (·.pa), (t.tile 0).tlb.length)
    | _ => ([], 0)) = ([8], 1) := by decide +kernel

/-- A load of the scratchpad that waits for its bank. -/
def Tests.parkedLoad : Proc := { Tests.parked placeProc .memoryReply (.ld .d .relaxed 1 2 8) with pend := some .spad }

/-- A tile whose slice 0 is as given. -/
def Tests.sliced (f : Slice → Slice) : Tile := { placeTile with slices := placeTile.slices.set 0 (f Slice.init) }

/-- A stale row 3. -/
def Tests.stale : Stale := { row := 3, delta := 0xFF, pdelta := 1 }

theorem witness_ScratchpadTurns : let s := Tests.tiled placeProc (Tests.storing false)
  let sw := fun (x : Slice) => { x with st := .sweeping 2 1023 }
  s.proc? 0 = some placeProc ∧ placeProc.tile = 0 ∧ placeProc.pend = none ∧ placeProc.queries = []
    ∧ ((s.tile 0).errors = [] ∧ ∀ k < 4, ((s.tile 0).slice k).st = .normal) ∧ (s.tile 0).fifo 0 0 = [Tests.store false]
    ∧ (s.tile 0).headReady 0 (Tests.store false) = true ∧ (Tests.store false).line % 64 = 0 ∧ spSlice (Tests.store false).line = 0
    ∧ ((Tests.tiled placeProc (Tests.sliced (fun x => { x with stale := [Tests.stale] }))).tile 0 |>.slice 0).stale = [Tests.stale]
    ∧ (∀ w < 8, mget placeTile.errors (underKey (underWord 0 3 w)) = none)
    ∧ (let t := { Tests.storing false with errors := [(0, true)] }
      t.errors = [(0, true)] ∧ spSlice 0 = 0 ∧ (t.slice 0).st = .normal ∧ (t.slice 0).stale = []
        ∧ (Tests.tiled placeProc t).loaderOf 0 0 = none ∧ t.storeNeeds 0 = true)
    ∧ (((Tests.sliced sw).slice 0).st = .sweeping 2 1023 ∧ (∀ e ∈ ((Tests.sliced sw).slice 0).stale, e.row ≠ 1023) ∧ (Tests.sliced sw).errors = []
      ∧ 1024 ≤ 1023 + 1)
    ∧ ((Tests.one Tests.parkedLoad).proc? 0 = some Tests.parkedLoad ∧ Tests.parkedLoad.park.isSome = true
      ∧ (Tests.parkedLoad.accessOf (.ld .d .relaxed 1 2 8)).map (fun a => (a.va, a.n, a.kind)) = some (8, 8, kRead) ∧ inDevice 8 = false
      ∧ ((Tests.one Tests.parkedLoad).tile 0).overlaps 0 8 8 = false ∧ ∀ j < 8, ((Tests.one Tests.parkedLoad).tile 0).spadPoison.contains ((8 + j) / 8) = false) := by
  decide +kernel

theorem test_scratchpad : (match exec (.spadStoreGrant 0 0 0) (Tests.tiled placeProc (Tests.storing false)) with
    | .next t => (memBytes (t.tile 0).spad 0 2, ((t.tile 0).fifo 0 0).length)
    | _ => ([], 1)) = ([0xAB, 0], 0)
  ∧ (match exec (.parityUpdate 0 0) (Tests.tiled placeProc (Tests.sliced (fun x => { x with stale := [Tests.stale] }))) with
    | .next t => ((t.tile 0).underAt (underWord 0 3 0), ((t.tile 0).slice 0).stale.length)
    | _ => ((0, false), 1)) = ((0xFF, true), 0)
  ∧ (match exec (.errorReconstruction 0 0) (Tests.tiled placeProc { Tests.storing false with errors := [(0, true)], spad := [⟨256, 5⟩], under := [⟨0, 6⟩] }) with
    | .next t => ((t.tile 0).dataAt 0, (t.tile 0).errors)
    | _ => ((0, false), [])) = ((3, false), [])
  ∧ (match exec (.sweepStep 0 0) (Tests.tiled placeProc (Tests.sliced (fun x => { x with st := .sweeping 2 1023 }))) with
    | .next t => ((t.tile 0).slice 0).st
    | _ => .normal) = .degraded 2 := by decide +kernel

/-! ## Between the words: channels and the stage manager -/

/-- A launch of a token of the placed channel, and its producer with a token and a credit on the way. -/
def Tests.launch (after : Nat) : Launch := { chan := 5, prod := 0, token := Tests.token 9 0 false, after }

/-- The placed channel with its producer changed. -/
def Tests.prodChan (f : Producer → Producer) : Chan := let x := Tests.chan []; { x with prods := x.prods.map f }

/-- A circuit to package 3. -/
def Tests.circuit : Circuit :=
  { pkg := 3, sendSeq := 0, recvSeq := 2, creditSend := 0, creditRecv := 4, heldTokens := [], heldCredits := [], inherited := 0, arriving := none, retired := false }

/-- A token and a credit of it. -/
def Tests.circToken (seq : Nat) : CircToken :=
  { handle := (Tests.chan []).handle 5, prod := 0, seq := BitVec.ofNat 32 seq, data := leBytes 8 9, tag := 0, poison := 0 }

/-- A credit packet of it. -/
def Tests.circCredit (seq : Nat) : CircCredit := { handle := (Tests.chan []).handle 5, prod := 0, seq := BitVec.ofNat 32 seq, count := 3 }

theorem witness_ChannelTurns : let p := Tests.ported { placeProc with launches := [Tests.launch 1], storeSeq := 1 }
  let s := Tests.linked p (Tests.chan [])
  let busy := { s with tiles := [(0, Tests.storing false)] }
  s.proc? 0 = some p ∧ p.launches = [Tests.launch 1] ∧ s.chan? 5 = some (Tests.chan []) ∧ (Tests.chan []).prods[0]?.isSome = true
    ∧ (s.tile 0).drained 0 1 = true ∧ (busy.tile 0).drained 0 1 = false ∧ (Tests.chan []).consumerAway = false
    ∧ ((Tests.prodChan (fun d => { d with flight := [Tests.token 9 0 false], returning := 1 })).prods[0]?).map (fun d => (d.flight, d.returning))
      = some ([Tests.token 9 0 false], 1)
    ∧ { Tests.chan [] with spill := [(0, Tests.token 9 0 false)] }.spill = [(0, Tests.token 9 0 false)] ∧ Tests.circuit.heldTokens = []
    ∧ Tests.circuit.heldCredits = [] ∧ (Tests.circToken 2).handle = (Tests.chan []).handle 5 ∧ (Tests.circToken 2).seq = Tests.circuit.recvSeq
    ∧ (Tests.circToken 3).seq ≠ Tests.circuit.recvSeq ∧ (Tests.circCredit 4).seq = Tests.circuit.creditRecv ∧ 5 < 2 ^ 20 ∧ Ctx.circuit 5 ∉ s.spilled
    ∧ s.liveHandle 7 = none := by
  decide +kernel

/-- The placed channel with its consumer, or its producer, at package 3. -/
def Tests.consumerFar : Chan := { Tests.prodChan (fun d => { d with flight := [Tests.token 9 0 false] }) with consumer := .remote 3, circuits := [Tests.circuit] }
def Tests.producerFar : Chan := { Tests.prodChan (fun d => { d with src := .remote 3, returning := 2 }) with circuits := [Tests.circuit] }

theorem witness_ChannelTurns_circuit : let x := Tests.consumerFar
  let y := Tests.producerFar
  x.consumerAway = true ∧ x.circuitTo 3 = some Tests.circuit ∧ (x.prods[0]?).map (·.flight) = some [Tests.token 9 0 false]
    ∧ (∀ d ∈ x.prods, d.src = .proc 0 1) ∧ y.circuitTo 3 = some Tests.circuit ∧ (y.prods[0]?).map (fun d => (d.src, d.returning, d.flight)) = some (.remote 3, 2, [])
    ∧ y.consumerAway = false ∧ y.tokenFrom 0 = 3 ∧ x.tokenFrom 0 = 3 ∧ x.creditFrom = 3 ∧ y.creditFrom = 3 ∧ y.circuits = [Tests.circuit]
    ∧ (Tests.circCredit 4).prod = 0 := by decide +kernel

/-- A process parked on an EVWAIT of bit 0, on a RECV of port 2, and on a fence that is over. -/
theorem witness_ChannelTurns_wake : let e := Tests.parked (Tests.proc [(2, 0x100)]) .eventWait (.evwait 2)
  let r := Tests.parked (Tests.ported placeProc) .channelRead (.recv 6 2)
  let f := Tests.parked placeProc .vectorDrain .vsync
  (Tests.one e).waitOf 0 e (.evwait 2) = some .eventWait ∧ (Tests.tiled e { placeTile with events := 1 }).waitOf 0 e (.evwait 2) ≠ some .eventWait
    ∧ e.evSpec (e.rd 2) = some 1 ∧ (Tests.linked r (Tests.chan [])).waitOf 0 r (.recv 6 2) = some .channelRead
    ∧ (Tests.linked r (Tests.chan [Tests.token 1 0 false])).waitOf 0 r (.recv 6 2) ≠ some .channelRead ∧ (Tests.one f).waitOf 0 f .vsync ≠ some .vectorDrain
    ∧ e.st = .parked .eventWait ∧ e.park.isSome = true := by decide +kernel

theorem test_channel : (match exec (.tokenLaunch 0) (Tests.linked (Tests.ported { placeProc with launches := [Tests.launch 0] }) (Tests.chan [])) with
    | .next t => (t.chan? 5).map (fun x => x.prods.map (fun d => d.flight.length))
    | _ => none) = some [1]
  ∧ (match exec (.tokenArrival 5 0) (Tests.linked placeProc (Tests.prodChan (fun d => { d with flight := [Tests.token 9 0 false] }))) with
    | .next t => (t.chan? 5).map (fun x => (x.buffer.length, x.written))
    | _ => none) = some (1, 1)
  ∧ (match exec (.creditArrival 5 0) (Tests.linked placeProc (Tests.prodChan (fun d => { d with returning := 2 }))) with
    | .next t => (t.chan? 5).map (fun x => x.prods.map (fun d => (d.credits, d.returning)))
    | _ => none) = some [(5, 1)]
  ∧ (match exec (.circuitTokenArrival (Tests.circToken 3)) (Tests.linked placeProc Tests.producerFar) with
    | .next t => (t.chan? 5).map (fun x => (x.buffer.length, x.circuits.map (fun c => c.heldTokens.length)))
    | _ => none) = some (0, [1])
  ∧ Tests.after (PState × Word) (exec (.parkedWake 0) (Tests.tiled (Tests.parked (Tests.proc [(2, 0x100)]) .eventWait (.evwait 2)) { placeTile with events := 1 }))
      (fun p => (p.st, p.pc - placeAddr)) = some (.ready, 4) := by decide +kernel

/-- A frame boundary of a producer alone, and of one whose consumer is parked reading. -/
theorem witness_StageTurns_frame : let s := { Tests.linked { placeProc with ports := [(1, (5, true))] } (Tests.chan []) with cue := 1024 }
  let p := { placeProc with ports := [(1, (5, true))] }
  let r := { Tests.parked { placeProc with slot := 1, ports := [(2, (5, false))], desc := { placeDesc with prio := 9 } } .channelRead (.recv 6 2) with eff := 9 }
  let t := { s with procs := [(0, p), (1, r)], nets := [(0, { placeNet with procs := [0, 1] })] }
  s.frame < s.cue / 1024 ∧ placeProc.produces = [] ∧ placeProc.resident = true ∧ p.produces = [5] ∧ t.chan? 5 = some (Tests.chan [])
    ∧ t.chans.all (fun y => y.2.circuits.isEmpty) = true ∧ t.proc? 1 = some r ∧ r.resident = true ∧ r.produces = []
    ∧ t.readers.filter (fun y => y.1 == 5) = [(5, 1)] ∧ (mget t.tenants p.tenant).isSome = true := by decide +kernel

/-- A network in motion, one deadlocked on reading, and one on writing whose channel may grow or not (R177, R178). -/
theorem witness_StageTurns_snapshot : let net := { placeNet with chans := [5] }
  let r := Tests.parked { placeProc with ports := [(2, (5, false))] } .channelRead (.recv 6 2)
  let w := Tests.parked { placeProc with ports := [(1, (5, true))] } .channelWrite (.send 6 1)
  let full := Tests.prodChan (fun d => { d with credits := 0 })
  let at_ := fun (p : Proc) (x : Chan) (n : Nat) => ({ Tests.linked p x with
    cue := 16384, nets := [(0, net)], tenants := [(0, { placeTenant with quota := { placeTenant.quota with spill := n } })] } : State)
  (at_ r (Tests.chan []) 0).snapTime < (at_ r (Tests.chan []) 0).cue / 16384 ∧ net.st = .running
    ∧ ((at_ r (Tests.chan []) 0).netChans 0).all (fun x => x.2.circuits.isEmpty) = true
    ∧ ((at_ placeProc (Tests.chan []) 0).viewOf 0 net).1 = true ∧ (at_ r (Tests.chan []) 0).viewOf 0 net = (false, false)
    ∧ (at_ w full 0).viewOf 0 net = (false, true) ∧ smallest ((at_ w full 0).blockedChans net) = some (full.handle 5, full.capacity)
    ∧ (∀ y ∈ (at_ w full 0).chans, y.2.handle y.1 = full.handle 5 → y = (5, full)) ∧ full.consumerAway = false ∧ full.prodsHere = full.prods
    ∧ (at_ w full 1).spillCharge 0 + full.growPages ≤ 1 ∧ 0 < (at_ w full 0).spillCharge 0 + full.growPages := by decide +kernel

/-- Two parts of a set, of this package and package 3, joined by circuit 7: neither moves, and one that does. -/
def Tests.part (pkg net other time : Nat) (moves : Bool) : SetPart :=
  { pkg, net, time, moves, writes := false, links := [(7, other)], counts := [], blocked := [], tight := [] }

theorem witness_StageTurns_far : let net := { placeNet with chans := [5] }
  let y := Tests.part 0 0 3 16384 false
  let z := fun (m : Bool) => Tests.part 3 9 0 16384 m
  let s := { Tests.linked placeProc Tests.consumerFar with nets := [(0, net)], self := some 0, cut := { time := 16384, nets := [0], parts := [y] } }
  s.chan? 5 = some Tests.consumerFar ∧ (∀ v ∈ [y], v.time < s.cut.time ∨ v ∈ s.cut.parts) ∧ State.reset.cut.nets = [] ∧ y.pkg = s.selfPkg
    ∧ s.procs.all (fun x => x.2.moved.isNone) = true ∧ mget s.nets 0 = some net ∧ net.st = .running
    ∧ (∀ m, (z m).pkg ≠ y.pkg ∧ partsJoin y (z m) = true ∧ setWhole [y, z m] = true) ∧ classOf [y, z false] = .dead ∧ classOf [y, z true] = .inMotion := by
  decide +kernel

/-- Cue slots of each action, due and not; a query asked and one answered; a token of the fault record. -/
theorem witness_StageTurns_slots : let q : Query := { office := 2, addr := 64, ev := 0, answer := none, store := none }
  let a := { q with answer := some 7 }
  let t := { placeTenant with faultq := [{ word := 5, discard := none }] }
  let s := { Tests.linked (Tests.armed (Tests.ported placeProc) 9 (4 + 16)) (Tests.chan []) with cue := 9 }
  placeProc.active = true ∧ placeProc.cueWait = [] ∧ vget (Tests.armed placeProc 9 12).cue 1 none = some (Tests.slot 9 12)
    ∧ (8 < (Tests.slot 9 12).time.toNat) ∧ (Tests.slot 9 12).time.toNat ≤ s.cue ∧ (Tests.slot 9 12).since ≤ s.cue ∧ s.cueBefore (Tests.armed placeProc 9 12) 1 (Tests.slot 9 12).due = false
    ∧ (s.tile 0).pendingStores 0 = [] ∧ placeProc.pend = none ∧ placeProc.queries = []
    ∧ (12 / 4 % 4 = 3 ∧ 8 / 4 % 4 = 2 ∧ (4 + 16) / 4 % 4 = 1)
    ∧ (let k := Tests.streaming (Tests.stream .load 1 512)
      (k.stream 0).fault = false ∧ (k.stream 0).lastId + 1 < 2 ^ 48 ∧ (k.stream 0).kicks.length < 4 ∧ (k.stream 0).modeCode ≠ 2 ∧ (k.stream 0).count ≠ 0)
    ∧ (Tests.ported placeProc).port 1 = some (5, true) ∧ s.consumerRetired (Tests.chan []) = false ∧ (Tests.chan []).prodOf (.proc 0 1) = some 0
    ∧ { placeProc with queries := [q] }.queries = [q] ∧ q.office = 2 ∧ q.answer = none ∧ a.answer = some 7 ∧ a.store = none
    ∧ ((Tests.one placeProc).tile 0 |>.fifo 0 (spSlice 64)).length < 8
    ∧ t.faultq = [{ word := 5, discard := none }] ∧ t.reserve = [] ∧ ((Tests.one placeProc).fn t.fn).fault.length < 256 := by decide +kernel

theorem test_stage : (match exec .cueFrameBoundary { Tests.one { placeProc with resvNext := 3 } with cue := 1024 } with
    | .next t => (t.frame, (t.proc? 0).map (·.resvUnits))
    | _ => (0, none)) = (1, some 3)
  ∧ (match exec (.boxOfficeQuery 2) { Tests.one { placeProc with queries := [{ office := 2, addr := 64, ev := 0, answer := none, store := none }] } with
      offices := State.reset.offices.set 2 { net := some 0, count := 1, next := 1, waiting := [0] } } with
    | .next t => (t.proc? 0).map (fun p => p.queries.map (·.answer))
    | _ => none) = some [some 0x8100000000000000]
  ∧ (match exec (.cueSlotFire 0 1) { Tests.one (Tests.armed placeProc 9 (12 + 256 * 3)) with cue := 9 } with
    | .next t => (t.tile 0).events
    | _ => 0) = 8
  ∧ (match exec (.faultRecordDeliver 0) { Tests.one placeProc with tenants := [(0, { placeTenant with faultq := [{ word := 5, discard := none }] })] } with
    | .next t => (t.fn 0).fault.map (fun k => (k.tag, k.data))
    | _ => []) = [(128, leBytes 8 5)] := by decide +kernel

/-! ## Engines -/

/-- A transfer of stream 0. -/
def Tests.kick (started : Bool) (next : Nat) : Kick := { id := 1, offset := 0, started, next, age := 0 }

/-- A strip. -/
def Tests.strip (index filled : Nat) (available released : Bool) : Strip := { index, available, filled, released }

/-- The machine whose process has stream 0, with a readable and writable page in its TLB. -/
def Tests.engine (t : StreamCtx) : State := Tests.tiled (Tests.streaming t) Tests.paged

/-- Reply to a line request of the engine of stream 0. -/
def Tests.engineReply (b : List Byte) (cause : Option Cause) : Reply := { Tests.reply 4 b with src := .engine 0 0, cause }

/-- What every clause about an engine assumes: nothing under way, no other process at its hart, nothing denied; and with a
request under way, and with another process at the hart. -/
theorem witness_StreamTurns : let t := { Tests.stream .copy 0 512 with kicks := [Tests.kick true 511], lastId := 1, aux := placeAddr + 4096 }
  let p := Tests.streaming t
  let s := Tests.engine t
  let q := { Tests.streaming { t with kicks := [{ Tests.kick true 511 with age := 0 }] } with slot := 1, eff := 5 }
  let two := { s with procs := [(0, p), (1, q)], nets := [(0, { placeNet with procs := [0, 1] })] }
  s.engineRuns p = true ∧ p.closing = [] ∧ (s.tile 0).denied = [] ∧ s.sourceWaits (.engine 0 0) = false ∧ s.sourceBusy (.engine 0 0) = false
    ∧ s.hartTaken 0 0 p = false ∧ two.hartTaken 0 0 p = true ∧ two.sourceBusy (.engine 0 0) = false
    ∧ s.unknown p (t.touched (Tests.kick true 511)) = [] ∧ (Tests.one p).unknown p (t.touched (Tests.kick true 511)) ≠ []
    ∧ (let u := { s with replies := [Tests.engineReply [1, 2, 3, 4] none] }
      u.sourceWaits (.engine 0 0) = false ∧ u.replies = [Tests.engineReply [1, 2, 3, 4] none])
    ∧ (Tests.engineReply [] none).bytes = [] ∧ (Tests.engineReply [] (some 0x42)).cause = some 0x42 ∧ (Tests.engineReply [] none).src = .engine 0 0 := by
  decide +kernel

theorem witness_StreamTurns_copy : let t := { Tests.stream .copy 0 512 with kicks := [Tests.kick true 511], lastId := 1, aux := placeAddr + 4096 }
  let s := Tests.engine t
  s.engineRuns (Tests.streaming t) = true ∧ s.remotes = [] ∧ s.replies = [] ∧ s.memErrors = [] ∧ t.faulting = none ∧ t.modeCode = 0 ∧ 511 < t.count
    ∧ (s.enginePlace (Tests.streaming t) (t.addr 511 0) t.z kRead).toOption = some (some (.phys (65536 + 2044)))
    ∧ (s.enginePlace (Tests.streaming t) (t.aux + BitVec.ofNat 64 (t.z * 511)) t.z kWrite).toOption = some (some (.phys (65536 + 4096 + 2044)))
    ∧ (s.enginePlace (Tests.streaming t) 0x0018000000000000 t.z kRead).toOption = none ∧ (Tests.kick false 0).started = false := by decide +kernel

/-- Strips that wait for old ones of their groups, one used up and not yet filled, the fields of an element none or one bad,
and what SDRAIN has left. -/
theorem witness_StreamTurns_strips : let t := { Tests.stream .load 1 512 with kicks := [Tests.kick true 0], lastId := 1, kicked := true, steps := 1 }
  let o := { Tests.stream .store 2 512 with kicks := [Tests.kick true 0], lastId := 1, kicked := true, steps := 1 }
  t.opened = true ∧ { t with opened := false }.opened = false ∧ (Tests.streaming { t with opened := false }).oldStrips 0 { t with opened := false } = false
    ∧ ({ t with strips := [Tests.strip 0 9 false false] }.strip? t.done) = some (Tests.strip 0 9 false false) ∧ t.deadFrom = none ∧ t.kicked = true
    ∧ (Tests.engine o).badPart (Tests.streaming o) o 0 = none ∧ ((Tests.one (Tests.streaming o)).badPart (Tests.streaming o) { o with base := 0x0018000000000000 } 0).isSome = true
    ∧ o.last = 2 ∧ t.last ≤ { t with done := 2 }.done := by decide +kernel

/-- The last element of a load stream and the first beyond it; a strip that has come; one that has been used. -/
theorem witness_StreamTurns_load : let t := { Tests.stream .load 1 300 with kicks := [Tests.kick true 0], lastId := 1 }
  let at_ := fun (n : Nat) => { t with strips := [Tests.strip 0 256 true false, Tests.strip 1 n false false] }
  (at_ 43).fillNext = some (Tests.strip 1 43 false false) ∧ t.indexOf 1 43 < t.count ∧ t.count ≤ t.indexOf 1 44 ∧ t.layout ≠ 3 ∧ t.et ≠ .mx4
    ∧ t.heads = 1 ∧ ((Tests.engine t).enginePlace (Tests.streaming t) (t.addr 299 0) t.z kRead).toOption = some (some (.phys (65536 + 1196)))
    ∧ { t with strips := [Tests.strip 0 256 false false] }.strips = [Tests.strip 0 256 false false] ∧ t.pieces ≤ 256
    ∧ t.open = true ∧ (Tests.streaming { t with steps := 1 }).stripReleased 0 0 = true ∧ t.modeCode = 1 := by decide +kernel

theorem witness_StreamTurns_store : let t := { Tests.stream .store 2 512 with kicks := [Tests.kick true 0], lastId := 1, kicked := true, steps := 1 }
  let at_ := fun (n : Nat) (r : Bool) => { t with strips := [Tests.strip 0 n true r] }
  (at_ 255 true).strip? 0 = some (Tests.strip 0 255 true true) ∧ 255 < t.pieces ∧ t.pieces ≤ 256 ∧ t.fault = false ∧ t.indexOf 0 255 < t.count
    ∧ ((Tests.engine t).enginePlace (Tests.streaming t) (t.addr 255 0) t.z kWrite).toOption = some (some (.phys (65536 + 1020)))
    ∧ t.open = true ∧ (Tests.streaming t).stripReleased 0 0 = true ∧ (at_ 0 false).strip? t.done = some (Tests.strip 0 0 true false)
    ∧ t.stripCount = 2 ∧ { t with base := t.base, ctrl := (Tests.stream .store 2 1024).ctrl }.stripCount = 4 ∧ t.deadFrom = none := by decide +kernel

theorem witness_StreamTurns_end : let t := { Tests.stream .load 1 512 with kicks := [Tests.kick true 0], lastId := 1, done := 2 }
  let c := { Tests.stream .copy 0 512 with kicks := [Tests.kick true 512], lastId := 1 }
  t.kicks = [Tests.kick true 0] ∧ t.faulting = none ∧ t.fault = false ∧ t.stripCount ≤ t.done ∧ t.modeCode ≠ 0 ∧ c.modeCode = 0 ∧ c.count ≤ 512
    ∧ { t with faulting := some (0x20, placeAddr, 1) }.faulting = some (0x20, placeAddr, 1) ∧ placeProc.desc.fpen = false := by decide +kernel

theorem test_engine : (match exec (.engineTransfer 0 0) (Tests.engine { Tests.stream .copy 0 512 with kicks := [Tests.kick true 511], lastId := 1, aux := placeAddr + 4096 }) with
    | .next t => t.flight.map (fun r => (r.src, r.pa, r.kind))
    | _ => []) = [(.engine 0 0, 67580, .read 4)]
  ∧ (match exec (.engineTransfer 0 0) { Tests.engine { Tests.stream .copy 0 512 with kicks := [Tests.kick true 511], lastId := 1, aux := placeAddr + 4096 } with
      replies := [Tests.engineReply [1, 2, 3, 4] none] } with
    | .next t => t.flight.map (fun r => (r.pa, r.kind))
    | _ => []) = [(65536 + 4096 + 2044, .write [1, 2, 3, 4] [false, false, false, false])]
  ∧ Tests.after (List Strip) (exec (.stripFill 0 0) (Tests.engine { Tests.stream .load 1 512 with kicks := [Tests.kick true 0], strips := [Tests.strip 0 256 false false] }))
      (fun p => (p.stream 0).strips) = some [Tests.strip 0 0 true false]
  ∧ Tests.after (Nat × Nat) (exec (.transferComplete 0 0) (Tests.engine { Tests.stream .load 1 512 with kicks := [Tests.kick true 0], lastId := 1, done := 2 }))
      (fun p => ((p.stream 0).watermark, (p.stream 0).kicks.length)) = some (1, 0) := by decide +kernel

/-- A post on queue 1 of 64 bytes from the placed page. -/
def Tests.post (fired : Bool) (dst : Word) : Post :=
  { postOf (Tests.request 64 0) with number := 1, fired, dst, pkg := if fired then 3 else 0, runs := if fired then [(64, 8, 128)] else [] }

/-- The placed process with a post on its queue 1. -/
def Tests.posting (t : Post) : Proc := { placeProc with xq := placeProc.xq.set 1 { XQueue.init 0 with posted := 1, posts := [t] } }

/-- A page table that maps 4096 bytes of device space at level 4 to a leaf: four tables of one entry each. -/
def Tests.tables (leaf : Nat) : Memory :=
  memPutBytes (memPutBytes (memPutBytes (memPutBytes [] 4096 (leBytes 8 (8192 + 1))) 8192 (leBytes 8 (12288 + 1))) 12288 (leBytes 8 (16384 + 1))) 16384 (leBytes 8 leaf)

/-- A machine of a process that translates through those tables, root 4096. -/
def Tests.mapped (p : Proc) (leaf : Nat) : State := { Tests.one p with mem := Tests.tables leaf, tiles := [(0, { placeTile with tlb := [] })] }

theorem witness_TransferTurns : let t := Tests.post false placeAddr
  let f := Tests.post true placeAddr
  let p := Tests.posting t
  let s := Tests.mapped p (remoteLeaf 3 8 0 0 true true)
  let l := Tests.mapped (Tests.posting f) (localLeaf 65536 0 true true false)
  s.proc? 0 = some p ∧ (p.queueAt 1).posts = [t] ∧ t.fired = false ∧ s.postReady p 1 t = true ∧ t.kind ≠ 1
    ∧ (s.dstRuns p.tenant (t.dst.toNat % 2 ^ 48) t.len 0 none (t.len / 4096 + 2)).toOption = some (3, [(64, 8, 0)])
    ∧ inDevice t.dst = true ∧ canonDev t.dst = true ∧ inDevice (Tests.post false 64).dst = false ∧ (p.queueAt 1).fault = none
    ∧ f.fired = true ∧ f.sent < f.len ∧ l.relayRuns (Tests.posting f) = true ∧ l.remotes = [] ∧ l.replies = [] ∧ l.memErrors = []
    ∧ runAt f.runs f.sent = some (64, 8, 128) ∧ inDevice f.src = true ∧ canonDev f.src = true
    ∧ (l.walkTranslate 0 f.src.toNat kRead).toOption = some (.phys 65536) ∧ l.relayBusy 0 9 = false ∧ (Tests.posting f).doneBefore f.after = true
    ∧ l.sourceWaits (.relay 0 9) = false ∧ l.sourceBusy (.relay 0 9) = false
    ∧ (let r := { Tests.reply 7 (List.replicate 64 1) with src := .relay 0 9 }
      let u := { l with replies := [r] }
      u.sourceWaits (.relay 0 9) = false ∧ r.src = .relay 0 9 ∧ f.got ++ r.bytes = List.replicate 64 1 ∧ min 256 (min 64 (f.len - f.sent)) = 64
        ∧ ([] : List Byte).length < 64 ∧ Ctx.imported 0 3 8 ∉ u.spilled) := by decide +kernel

/-- A packet of that post, and the remote request it is. -/
def Tests.packet : MsgPkt :=
  { src := 3, id := 6, tenant := 0, key := 8, gen := 1, regOff := 0, srcQ := 0, post := 1, off := 0, len := 64, tqh := 0
    bytes := List.replicate 64 7, poison := List.replicate 64 false }

/-- A registration of the placed page, of generation 1. -/
def Tests.reg8 : Reg :=
  { tenant := 0, gen := 1, base := placeAddr.toNat, pages := 1, atomic := true, write := true, read := true, allowed := 1, revoking := false, revoked := false }

theorem witness_TransferTurns_packets : let x : RemotePend :=
    { pkg := 3, src := .relay 0 1, retries := 0, waiting := false, msg := some Tests.packet
      req := { src := 0, id := 6, agent := 0, tenant := 0, key := 8, gen := 1, off := 0, kind := .write [] [] } }
  let f := { Tests.post true placeAddr with sent := 64, unacked := [0] }
  let s := { Tests.mapped (Tests.posting f) (localLeaf 65536 0 true true false) with remotes := [(6, x)] }
  let r := { Tests.mapped placeProc (localLeaf 65536 0 true true false) with regs := [(8, Tests.reg8)], queueHandles := [(0, (0, 0))] }
  s.remotes = [(6, x)] ∧ Tests.packet.post = f.number ∧ f.len ≤ f.sent ∧ f.unacked = [Tests.packet.off] ∧ ((Tests.posting f).queueAt 1).doneCount + 1 = f.number ∧ carriedCause 0x92 = true
    ∧ Ctx.queue (Tests.packet.tqh.toNat / 4096) ∉ r.spilled ∧ (r.checkRemote 0 8 1 0 64 kWrite).toOption = some Tests.reg8
    ∧ (r.checkRemote 0 8 1 4033 64 kWrite).toOption = none ∧ r.queueOf Tests.packet.tqh = some (0, 0) ∧ { r with queueHandles := [] }.queueOf Tests.packet.tqh = none
    ∧ Tests.packet.bytes.length ≤ 64 - Tests.packet.regOff % 64 ∧ (r.walkTranslate 0 placeAddr.toNat kWrite).toOption = some (.phys 65536) := by decide +kernel

theorem test_posts : (match exec (.transferFire 0 1) (Tests.mapped (Tests.posting (Tests.post true placeAddr)) (localLeaf 65536 0 true true false)) with
    | .next t => t.flight.map (fun r => (r.src, r.pa, r.kind))
    | _ => []) = [(.relay 0 9, 65536, .read 64)]
  ∧ (match exec (.transferFire 0 1) { Tests.mapped (Tests.posting (Tests.post true placeAddr)) (localLeaf 65536 0 true true false) with
      replies := [{ Tests.reply 7 (List.replicate 64 1) with src := .relay 0 9 }] } with
    | .next t => t.vout.map (fun x => match x with
      | .message k m => (k, m.key.toNat, m.regOff, m.bytes.length)
      | _ => (0, 0, 0, 0))
    | _ => []) = [(3, 8, 128, 64)]
  ∧ (match exec (.messagePacketArrival Tests.packet) { Tests.mapped placeProc (localLeaf 65536 0 true true false) with regs := [(8, Tests.reg8)], queueHandles := [(0, (0, 0))] } with
    | .next t => t.flight.map (·.pa)
    | _ => []) = [65536] := by decide +kernel

/-- The collective of a group, its digests exchanged. -/
def Tests.agreed (ph : RelayPhase) (b : List Byte) : Coll :=
  { Tests.coll 1 with started := true, prevOk := true, nextOk := true, phase := ph, bytes := b, poison := List.replicate b.length false }

/-- A process that has issued a collective. -/
def Tests.gathering (c : Coll) : Proc := { placeProc with colls := [c], collIssued := 1 }

theorem witness_CollectiveTurns : let p := Tests.gathering (Tests.coll 1)
  let s := Tests.grouped p
  s.proc? 0 = some p ∧ s.group p = some Tests.group ∧ s.relayRuns p = true ∧ (Tests.coll 1).started = false ∧ 1 < Tests.group.digest.devcnt
    ∧ { Tests.group with digest := { Tests.group.digest with devcnt := 1, ranks := [0] } }.digest.devcnt ≤ 1 ∧ (Tests.coll 1).number ≤ p.collIssued
    ∧ { Tests.group.digest with tag := 6 } ≠ Tests.group.digest ∧ (10 : BitVec 4) ≠ 2
    ∧ (let c := Tests.agreed .read []
      let r := { Tests.grouped (Tests.gathering c) with mem := Tests.tables (localLeaf 65536 0 true true false) }
      c.past = false ∧ r.remotes = [] ∧ r.replies = [] ∧ r.memErrors = [] ∧ (Tests.gathering c).heldChunks = []
        ∧ (r.collPlace (Tests.gathering c) c 0 kRead).toOption = some (.phys 65536) ∧ (r.collPlace (Tests.gathering c) c 0 kWrite).toOption = some (.phys 65536)
        ∧ (Tests.agreed .exchange (List.replicate 64 0)).bytes.length % collBytes 10 = 0 ∧ Tests.group.rank = 0
        ∧ { Tests.group with rank := 1 }.rank + 1 = Tests.group.digest.devcnt
        ∧ r.relayBusy 0 4 = false ∧ r.sourceWaits (.relay 0 4) = false ∧ r.sourceBusy (.relay 0 4) = false ∧ carriedCause 0x90 = true
        ∧ (let rep := { Tests.reply 7 (List.replicate 64 1) with src := .relay 0 4 }
          let u := { r with replies := [rep] }
          u.sourceWaits (.relay 0 4) = false ∧ rep.cause = none ∧ rep.src = .relay 0 4 ∧ c.phase = .read ∧ c.chunkBytes = 64)
        ∧ { Tests.agreed .write (List.replicate 64 0) with asked := 64 }.written + 64 = 64 ∧ 0 + 32 < (Tests.agreed .write (List.replicate 64 0)).bytes.length)
    ∧ { Tests.agreed .read [] with chunk := 1 }.past = true ∧ (Tests.gathering (Tests.coll 1)).collFault = none := by decide +kernel

theorem test_collective : (match exec (.collectiveStart 0) (Tests.grouped (Tests.gathering (Tests.coll 1))) with
    | .next t => t.vout.map (fun x => match x with
      | .digest k _ m => (k, m.n, m.fromPrev)
      | _ => (9, 9, false))
    | _ => []) = [(1, 1, true), (1, 1, false)]
  ∧ Tests.after Nat (exec (.collectiveComplete 0) (Tests.grouped (Tests.gathering { Tests.agreed .read [] with chunk := 1 }))) (·.coll) = some 1
  ∧ Tests.after (Option (Nat × Cause)) (exec (.collFailureMarker 0 1 0x90) (Tests.grouped (Tests.gathering (Tests.coll 1)))) (·.collFault)
      = some (some (1, 0x90)) := by decide +kernel

/-! ## Viaduct -/

/-- A flit in sequence, of a payload of zeros. -/
def Tests.flit (seq : Nat) : Flit := { seq, corrected := true, crc := Config.linkCrc (List.replicate 32 0), dst := 3, payload := List.replicate 32 0 }

/-- Block `n` of a payload, its header holding the CRC of what it covers. -/
def Tests.bulk (p : List Byte) (n : Nat) : BulkBlock :=
  { header := BitVec.ofNat 64 ((Config.linkCrc (leBytes 4 n ++ p)).toNat * (256 * 256 * 256 * 256) + n), payload := p, poison := 0 }

theorem Tests.bulk_header (p : List Byte) : (Tests.bulk p 7).header.toNat = (Config.linkCrc (leBytes 4 7 ++ p)).toNat * (256 * 256 * 256 * 256) + 7 := by
  have := (Config.linkCrc (leBytes 4 7 ++ p)).isLt
  simp only [Tests.bulk, BitVec.toNat_ofNat]
  omega

theorem Tests.bytes_of_seven (x : Nat) : leBytes 4 (x * (256 * 256 * 256 * 256) + 7) = leBytes 4 7 := by
  have e : ∀ y k : Nat, k < 256 → (y * 256 + k) / 256 = y ∧ BitVec.ofNat 8 (y * 256 + k) = BitVec.ofNat 8 k := fun y k hk =>
    ⟨by omega, BitVec.eq_of_toNat_eq (by simp only [BitVec.toNat_ofNat]; omega)⟩
  rw [← Nat.mul_assoc, ← Nat.mul_assoc, ← Nat.mul_assoc]
  have h0 := e (x * 256 * 256 * 256) 7 (by decide)
  have h1 := e (x * 256 * 256) 0 (by decide)
  have h2 := e (x * 256) 0 (by decide)
  have h3 := e x 0 (by decide)
  simp only [Nat.add_zero] at h1 h2 h3
  simp only [leBytes, h0, h1, h2, h3]

theorem witness_ViaductTurns_flit : (State.reset.vport 35).up = true ∧ (State.reset.vport 35).bulk = none
  ∧ (Tests.flit 0).crc = Config.linkCrc (Tests.flit 0).payload ∧ (Tests.flit 0).seq = (State.reset.vport 35).recvSeq ∧ (Tests.flit 1).seq ≠ (State.reset.vport 35).recvSeq
  ∧ mget { State.reset with routes := [(3, 2 ^ 35)] }.routes 3 = some (BitVec.ofNat 36 (2 ^ 35))
  ∧ (∀ j < 36, (BitVec.ofNat 36 (2 ^ 35)).getLsbD j = true → j = 35) ∧ (Tests.flit 0).payload.length = 32 ∧ (Tests.flit 0).corrected = true := by
  refine ⟨by decide +kernel, by decide +kernel, ?_, by decide +kernel, by decide +kernel, by decide +kernel, by decide +kernel, by decide +kernel, by decide +kernel⟩
  simp only [Tests.flit]

theorem witness_ViaductTurns_bulk : (∃ b : BulkBlock, b.payload.length = 512 ∧ b.header.toNat % 2 ^ 30 = 7
      ∧ b.header.toNat / 2 ^ 32 = (Config.linkCrc (leBytes 4 b.header.toNat ++ b.payload)).toNat)
    ∧ (512 * 7 + 512 ≤ Tests.reg8.pages * 4096 ∧ (State.reset.vport 35).farBulk = none ∧ { VPort.init with farBulk := some 8 }.farBulk = some (8 : BitVec 12)
      ∧ { VPort.init with up := false }.up = false ∧ { State.reset with regs := [(8, Tests.reg8)] }.reg? 8 = some Tests.reg8)
    ∧ ((Tests.mapped placeProc (localLeaf 65536 0 true true false)).walkTranslate 0 (Tests.reg8.base + 512 * 7) kWrite).toOption = some (.phys (65536 + 3584)) := by
  refine ⟨⟨Tests.bulk (List.replicate 512 0) 7, List.length_replicate, ?_, ?_⟩, by decide +kernel, by decide +kernel⟩
  · rw [Tests.bulk_header]; omega
  · rw [Tests.bulk_header, Tests.bytes_of_seven]
    simp only [Tests.bulk]
    generalize (Config.linkCrc (leBytes 4 7 ++ List.replicate 512 0)).toNat = n
    omega

/-- A remote request of the placed registration. -/
def Tests.remote (off : Nat) (kind : ReqKind) : RemReq := { src := 3, id := 6, agent := 1, tenant := 0, key := 8, gen := 1, off, kind }

/-- The machine that holds the registration, its page mapped. -/
def Tests.exporting (r : Reg) : State := { Tests.mapped placeProc (localLeaf 65536 0 true true false) with regs := [(8, r)] }

/-- Each check of a remote request met and failed at its edge. -/
theorem witness_ViaductTurns_remote : let r := Tests.reg8
  (Tests.exporting r).reg? 8 = some r ∧ (Tests.exporting r).reg? 9 = none ∧ Ctx.registration 8 ∉ (Tests.exporting r).spilled
    ∧ Ctx.registration 8 ∈ { Tests.exporting r with spilled := [.registration 8] }.spilled ∧ r.allowed.getLsbD 0 = true ∧ r.allowed.getLsbD 1 = false
    ∧ r.revoked = false ∧ r.revoking = false ∧ { r with revoking := true }.revoking = true ∧ (Tests.remote 0 (.read 64)).gen = r.gen ∧ (2 : BitVec 12) ≠ r.gen
    ∧ r.pages * 4096 < 4033 + kindBytes (.read 64) ∧ 4032 + kindBytes (.read 64) ≤ r.pages * 4096 ∧ { r with read := false }.admits (kindAccess (.read 64)) = false
    ∧ r.admits (kindAccess (.read 64)) = true
    ∧ ((Tests.exporting r).walkTranslate 0 (r.base + 4032) (kindAccess (.read 64))).toOption = some (.phys (65536 + 4032)) := by decide +kernel

/-- A request of this package without its reply, answered with retry before. -/
def Tests.pending (retries : Nat) : RemotePend := { pkg := 3, src := .proc 0, req := Tests.remote 0 (.read 8), msg := none, retries, waiting := true }

/-- A machine whose cache holds one context many times, with another spilled. -/
def Tests.crowded (a b n : Nat) : State := { State.reset with regs := List.replicate n (b, Tests.reg8), spilled := [.registration a] }

theorem Tests.crowded_full (a b n : Nat) (h : a ≠ b) (e : (Ctx.registration a).die = (Ctx.registration b).die) (hn : 4096 ≤ n) :
    (Tests.crowded a b n).cacheFull (.registration a) = true := by
  have l : (Tests.crowded a b n).contextList = List.replicate n (.registration b, false) := by
    simp only [State.contextList, Tests.crowded, List.map_replicate]
    simp [State.reset]
  have c : ([Ctx.registration a] : List Ctx).contains (.registration b) = false := by simp [Ne.symm h]
  simp only [State.cacheFull, l, show (Tests.crowded a b n).spilled = [.registration a] from rfl, List.filter_replicate, c, e, beq_self_eq_true,
    Bool.not_false, if_true, List.length_replicate]
  simp; omega

/-- Room in the cache, and none; a request that waits for its context. -/
theorem witness_ViaductTurns_cache : (Tests.exporting Tests.reg8).cacheFull (.registration 8) = false ∧ { Tests.pending 0 with unsent := true }.unsent = true
  ∧ (∀ x ∈ [((6, Tests.pending 16) : Nat × RemotePend)], x.2.unsent = false) ∧ carriedCause 0x40 = true ∧ carriedCause 0xE0 = false
  ∧ ∃ (s : State) (c : Ctx), s.spilled = [c] ∧ s.cacheFull c = true := by
  refine ⟨by decide +kernel, by decide +kernel, by decide +kernel, by decide +kernel, by decide +kernel, ?_⟩
  have two : ∀ k, (Ctx.registration k).die = 0 ∨ (Ctx.registration k).die = 1 := fun k => by simp only [Ctx.die]; omega
  have pick : ∃ a b, a ≠ b ∧ (Ctx.registration a).die = (Ctx.registration b).die := by
    rcases two 0 with h | h <;> rcases two 1 with i | i <;> rcases two 2 with j | j
    · exact ⟨0, 1, by decide, h.trans i.symm⟩
    · exact ⟨0, 1, by decide, h.trans i.symm⟩
    · exact ⟨0, 2, by decide, h.trans j.symm⟩
    · exact ⟨1, 2, by decide, i.trans j.symm⟩
    · exact ⟨1, 2, by decide, i.trans j.symm⟩
    · exact ⟨0, 2, by decide, h.trans j.symm⟩
    · exact ⟨0, 1, by decide, h.trans i.symm⟩
    · exact ⟨0, 1, by decide, h.trans i.symm⟩
  obtain ⟨a, b, h, e⟩ := pick
  exact ⟨Tests.crowded a b 4096, _, rfl, Tests.crowded_full a b _ h e (Nat.le_refl _)⟩

/-- A REG.REVOKE under way. -/
def Tests.revoke : Busy := { header := 0x1F01000000000000, args := [8], seenAge := 0, held := [], mute := false }

theorem witness_ViaductTurns_revoke : let s := { Tests.exporting { Tests.reg8 with revoking := true } with fns := [(33, { Fn.init with busy := some Tests.revoke })] }
  s.reg? 8 = some { Tests.reg8 with revoking := true } ∧ s.accepted.any (fun a => a.key == 8) = false ∧ s.fns = [(33, { Fn.init with busy := some Tests.revoke })]
    ∧ Fn.init.cmdin = [] ∧ Tests.revoke.mute = false ∧ Tests.revoke.header.toNat / 2 ^ 56 = 0x1F ∧ Tests.revoke.args = [BitVec.ofNat 64 (8 : BitVec 12).toNat]
    ∧ { s with accepted := [{ key := 8, pkg := 3, id := 6, req := 0, msg := none }] }.accepted.any (fun a => a.key == 8) = true := by decide +kernel

/-- What a remote request is answered. -/
def Tests.answers (r : Res) : List (Nat × RemRep) := match r with
  | .next t => t.vout.map (fun x => match x with
    | .reply _ id rep => (id, rep)
    | _ => (0, .retry))
  | _ => []

theorem test_remote : Tests.answers (exec (.remoteRequest { Tests.remote 0 (.read 8) with tenant := 1 }) (Tests.exporting Tests.reg8)) = [(6, .nak 0x91)]
  ∧ Tests.answers (exec (.remoteRequest (Tests.remote 4033 (.read 64))) (Tests.exporting Tests.reg8)) = [(6, .nak 0x92)]
  ∧ Tests.answers (exec (.remoteRequest { Tests.remote 0 (.read 8) with gen := 2 }) (Tests.exporting Tests.reg8)) = [(6, .nak 0x26)]
  ∧ Tests.answers (exec (.remoteRequest (Tests.remote 0 (.read 8))) (Tests.exporting { Tests.reg8 with revoked := true })) = [(6, .nak 0x25)]
  ∧ Tests.answers (exec (.remoteRequest (Tests.remote 0 (.write [0] [false]))) (Tests.exporting { Tests.reg8 with write := false })) = [(6, .nak 0x93)]
  ∧ Tests.answers (exec (.remoteRequest (Tests.remote 0 (.read 8))) (Tests.exporting Tests.reg8)) = [] := by decide +kernel

/-! ## The host -/

/-- The bytes of one write of a command token of one argument. -/
def Tests.commandBytes : List Byte := leBytes 8 0x0601000000000000 ++ [2, 0, 0, 0, 0, 0, 0, 0]

/-- Function 0 with something changed, of a module that is ready. -/
def Tests.host (f : Fn → Fn) : State := { State.reset with ready := true, fns := [(0, f Fn.init)] }

/-- The same with a host-end slot 0 bound to the placed channel. -/
def Tests.slotted (hostProduces : Bool) (x : Chan) : State :=
  { Tests.linked placeProc x with fns := [(0, { Fn.init with tenant := some 0, slots := [(0, { chan := 5, hostProduces })] })] }

/-- A narrow channel from the host's slot 0 to port 2, and one from port 1 to the slot. -/
def Tests.inlet : Chan := newChan 1 0 0 4 0 false false (.proc 0 2) [.host 0 0]

/-- The other way. -/
def Tests.outlet (b : List Token) : Chan :=
  { newChan 1 0 0 4 0 false false (.host 0 0) [.proc 0 1] with buffer := b.map (fun t => (0, t)) }

theorem witness_HostTurns : let s := Tests.host id
  s.ready = true ∧ Tests.commandBytes.length = 16 ∧ (Tests.commandBytes.getD 8 0).toNat < 128 ∧ 0 < (s.fn 0).cmdCredits ∧ Tests.commandBytes.getD 8 0 = 2
    ∧ leNat (Tests.commandBytes.take 8) / 2 ^ 48 % 256 ≠ 0 ∧ (s.fn 0).cmdin = [] ∧ ((Tests.host (fun f => { f with cmdCredits := 0 })).fn 0).cmdCredits = 0
    ∧ (8 < 16 ∧ 0 < Tests.commandBytes.length ∧ ¬(8 = 0 ∧ Tests.commandBytes.length = 16))
    ∧ (s.fn 0).fault = [] ∧ ((Tests.host (fun f => { f with fault := [faultToken 5] })).fn 0).fault = [faultToken 5] ∧ (faultToken 5).data.length = 8
    ∧ (s.fn 0).window = none ∧ (s.fn 0).posted = [] ∧ (s.fn 0).faultWait = [] ∧ (s.fn 0).discards = [] ∧ (s.fn 0).replyWait = []
    ∧ ((Tests.host (fun f => { f with reply := [faultToken 5] })).fn 0).reply = [faultToken 5] ∧ (s.fn 0).reply = [] := by decide +kernel

/-- A window write whose request is under way, a window read, and their replies. -/
theorem witness_HostTurns_window : let w := Posted.window placeAddr.toNat 0 [1] false (some [4])
  let s := { Tests.host (fun f => { f with posted := [w] }) with replies := [{ Tests.reply 4 [] with src := .fn 0 }] }
  let r := { Tests.host (fun f => { f with reads := [[(4, none)]] }) with replies := [{ Tests.reply 4 [9] with src := .fn 0 }] }
  (s.fn 0).posted = [.window placeAddr.toNat 0 [1] false (some (4 :: []))] ∧ 0 < (s.fn 0).cmdCredits ∧ (s.fn 0).reads = []
    ∧ s.replies = [{ Tests.reply 4 [] with src := .fn 0 }] ∧ (r.fn 0).reads = [[(4, none)]] ∧ (r.fn 0).posted = []
    ∧ r.replies = [{ Tests.reply 4 [9] with src := .fn 0 }] := by decide +kernel

theorem witness_HostTurns_slots : let t := Tests.slotted true Tests.inlet
  let o := Tests.slotted false (Tests.outlet [Tests.token 9 0 false])
  t.slotsOf 0 true = [(0, 5, Tests.inlet)] ∧ t.chan? 5 = some Tests.inlet ∧ (Tests.inlet.hostProd 0 0).map (fun x => (x.1, x.2.credits)) = some (0, 4)
    ∧ Tests.inlet.wide = false ∧ o.slotsOf 0 false = [(0, 5, Tests.outlet [Tests.token 9 0 false])] ∧ (Tests.outlet []).buffer = []
    ∧ (Tests.token 9 0 false).data.length = 8
    ∧ (let w := { Tests.mapped placeProc (localLeaf 65536 0 true true false) with fns := [(0, { Fn.init with tenant := some 0, window := some placeAddr.toNat })] }
      (w.fn 0).tenant = some 0 ∧ (w.fn 0).window = some placeAddr.toNat ∧ 56 + 8 ≤ 2 ^ 36 ∧ 8 ≤ 64 - (placeAddr.toNat + 56) % 64 ∧ w.memErrors = []
        ∧ (w.walkTranslate 0 (placeAddr.toNat + 56) kRead).toOption = some (.phys (65536 + 56))
        ∧ (w.walkTranslate 0 (placeAddr.toNat + 56) kWrite).toOption = some (.phys (65536 + 56))) := by decide +kernel

theorem test_inlet : (match exec (.inletWrite 0 0 Tests.commandBytes false) (Tests.host id) with
    | .next t => ((t.fn 0).cmdin.map (fun k => (k.tag, leNat k.data)), (t.fn 0).cmdCredits)
    | _ => ([], 0)) = ([(2, 0x0601000000000000)], 63)
  ∧ (match exec (.inletWrite 0 8 Tests.commandBytes false) (Tests.host id) with
    | .next t => ((t.fn 0).cmdin.length, (t.fn 0).badw)
    | _ => (9, 0)) = (0, 1)
  ∧ (match exec (.inletWrite 0 0 Tests.commandBytes false) (Tests.host (fun f => { f with cmdCredits := 0 })) with
    | .next t => ((t.fn 0).cmdin.length, (t.fn 0).ovr)
    | _ => (9, 0)) = (0, 1) := by decide +kernel

theorem test_outlet : (match exec (.outletRead 0 0x200 16) (Tests.host (fun f => { f with fault := [faultToken 5] })) with
    | .next t => t.completions
    | _ => []) = [.data (leBytes 8 5 ++ [128, 1, 0, 0, 0, 0, 0, 0]) false]
  ∧ (match exec (.outletRead 0 0x1000 16) (Tests.slotted false (Tests.outlet [])) with
    | .next t => t.completions
    | _ => []) = [.data (List.replicate 16 0) false]
  ∧ (match exec (.windowRead 0 0 8) (Tests.host id) with
    | .next t => t.completions
    | _ => []) = [.unsupported] := by decide +kernel

/-! ## Power -/

theorem witness_PowerTurns : State.reset.ready = false ∧ (Tests.host id).ready = true ∧ State.reset.fuses.bootCount < 32768
  ∧ 32768 ≤ { State.reset.fuses with bootCount := 32768 }.bootCount
  ∧ { State.reset.fuses with banks := [36 * 383 + 9 * 3 + 8] }.banks = [36 * 383 + 9 * 3 + 8] ∧ (Tests.host id).snapshot = none
  ∧ mget (Tests.host (fun f => { f with tenant := some 0 })).fns 0 = some { Fn.init with tenant := some 0 }
  ∧ mget { Tests.one placeProc with fns := [(1, { Fn.init with tenant := some 0 })] }.fns 1 = some { Fn.init with tenant := some 0 }
  ∧ { Tests.one placeProc with fns := [(1, { Fn.init with tenant := some 0 })] }.slotsOf 1 false = [] ∧ 1 % 33 ≠ 0
  ∧ (Tests.one placeProc).nets = [(0, placeNet)] ∧ placeNet.tenant = 0 ∧ placeNet.st = .running ∧ placeNet.st ≠ .held
  ∧ { State.reset with fns := [(33, Fn.init)] }.fns = [(33, Fn.init)] ∧ Fn.init.slots = [] := by decide +kernel

theorem test_power : (match exec .powerGood State.reset with
    | .next t => (t.ready, t.fuses.bootCount, t.attests)
    | _ => (false, 0, 9)) = (true, 1, 0)
  ∧ (match exec .powerGood { State.reset with fuses := { bootCount := 32768, banks := [8] } } with
    | .next t => (t.attests, t.fuses.bootCount, ((t.tile 0).slice 0).st)
    | _ => (0, 0, .normal)) = (32768, 32768, .degraded 8)
  ∧ (match exec .thermalHold (Tests.one placeProc) with
    | .next t => t.nets.map (fun n => (n.2.st, n.2.thermal))
    | _ => []) = [(.held, true)]
  ∧ (match exec (.functionReset 1) { Tests.one placeProc with fns := [(1, { Fn.init with tenant := some 0, cmdCredits := 3 })] } with
    | .next t => ((t.fn 1).cmdCredits, t.nets.map (fun n => (n.2.st, n.2.thermal)))
    | _ => (0, [])) = (64, [(.held, false)]) := by decide +kernel

/-! ## Commands -/

/-- A header: OP, arguments, NET, NGEN; SEQ is 9. -/
def Tests.header (op n net ngen : Nat) : Word := BitVec.ofNat 64 (op * 2 ^ 56 + n * 2 ^ 48 + net * 2 ^ 40 + ngen * 2 ^ 32 + 9)

/-- A state with a command alone in the command channel of a function. -/
def Tests.ask (s : State) (fn : Nat) (f : Fn) (hd : Word) (a : List Word) : State :=
  { s with ready := true, fns := [(fn, { f with cmdin := promptToken hd 2 :: a.map (fun x => promptToken x 0) })] }

/-- STATUS and results of the one reply a function has been given: the header's SEQ, STATUS, and the words behind it. -/
def Tests.status (r : Res) (fn : Nat) : List Nat := match r with
  | .next t => match (t.fn fn).reply.map (fun k => leNat k.data) with
    | h :: l => h % 2 ^ 32 :: h / 2 ^ 32 % 256 :: l
    | [] => []
  | _ => []

/-- The tenant's words of TENANT.CREATE: MAXPROC 1, MAXTILES 1, MAXNETS 1. -/
def Tests.quota : Word := BitVec.ofNat 64 (2 ^ 52 + 2 ^ 43 + 2 ^ 18)

/-- The commands of tenants: created, given a quota that covers or does not, destroyed. -/
theorem witness_ManagementCommands_tenants : let c := Tests.ask State.reset 0 Fn.init (Tests.header 0x01 3 0 0) [0, Tests.quota, 0]
  let s := { Tests.one placeProc with nets := [], tenants := [(0, { placeTenant with fn := 33 })], regs := [(8, Tests.reg8)] }
  let q := fun (x : Word) => Tests.ask s 0 Fn.init (Tests.header 0x02 3 0 0) [0, x, 0]
  let d := Tests.ask s 0 Fn.init (Tests.header 0x03 1 0 0) [0]
  0 % 33 = 0 ∧ (Tests.header 0x01 3 0 0).toNat / 2 ^ 32 % 65536 = 0 ∧ c.asks 0 0x01 (Tests.header 0x01 3 0 0) [0, Tests.quota, 0]
    ∧ Tests.quota.toNat % 2 ^ 15 = 0 ∧ (quotaOf Tests.quota.toNat 0).ok = true ∧ (c.fn 0).tenant = none ∧ mget c.tenants 0 = none
    ∧ (c.allocPage 4096).map (·.1) = some 0
    ∧ (q Tests.quota).asks 0 0x02 (Tests.header 0x02 3 0 0) [0, Tests.quota, 0] ∧ (quotaOf Tests.quota.toNat 0).covers (s.charges 0) = true
    ∧ (quotaOf Tests.quota.toNat 0).covers ((Tests.grouped { placeProc with resvNext := 1 }).charges 0) = false
    ∧ d.asks 0 0x03 (Tests.header 0x03 1 0 0) [0] ∧ (mget d.tenants 0).map (·.fn) = some 33 ∧ (d.fn 33).busy = none ∧ d.netsOf 0 = []
    ∧ d.accepted = [] ∧ d.flight = [] ∧ d.queued = [] ∧ d.remotes = [] ∧ placeTenant.root ∈ placeTenant.tables := by
  simp only [State.asks]; decide +kernel

/-- TOPO.SET of a route and of the package itself, and CUE.SYNC. -/
theorem witness_ManagementCommands_module : let r := BitVec.ofNat 64 (3 * 2 ^ 54 + 1)
  let me := BitVec.ofNat 64 (3 * 2 ^ 54 + 2 ^ 53)
  (Tests.ask State.reset 0 Fn.init (Tests.header 0x04 1 0 0) [r]).asks 0 0x04 (Tests.header 0x04 1 0 0) [r] ∧ r.toNat / 2 ^ 36 % 2 ^ 17 = 0
    ∧ (Tests.ask State.reset 0 Fn.init (Tests.header 0x04 1 0 0) [me]).asks 0 0x04 (Tests.header 0x04 1 0 0) [me] ∧ me.toNat / 2 ^ 36 % 2 ^ 17 = 0
    ∧ r.getLsbD 53 = false ∧ me.getLsbD 53 = true
    ∧ (Tests.ask State.reset 0 Fn.init (Tests.header 0x05 1 0 0) [BitVec.ofNat 64 (3 * 2 ^ 54)]).asks 0 0x05 (Tests.header 0x05 1 0 0) [BitVec.ofNat 64 (3 * 2 ^ 54)]
    ∧ { State.reset with self := some 3 }.self = some 3 ∧ { State.reset with routes := [(3, 1)] }.reachable 3 = true ∧ State.reset.self ≠ some 3
    ∧ State.reset.reachable 3 = false := by
  simp only [State.asks]; decide +kernel

/-- HEALTH at its last bank, its last server, its greatest threshold, and the form that clears. -/
theorem witness_ManagementCommands_health : (∀ x ∈ [0x0035FF0000000000, 0x01000000FF000000, 0x020035FF00000040, 0x0300000000000000],
      (Tests.ask State.reset 0 Fn.init (Tests.header 0x06 1 0 0) [BitVec.ofNat 64 x]).asks 0 0x06 (Tests.header 0x06 1 0 0) [BitVec.ofNat 64 x])
    ∧ (let x := (36 * 383 + 9 * 3 + 8) * 2 ^ 32
      x / 2 ^ 16 % 2 ^ 16 = 0 ∧ x / 2 ^ 56 = 0 ∧ x / 2 ^ 32 % 2 ^ 24 / 36 = 383 ∧ (2 ^ 56 + 255 * 2 ^ 32) / 2 ^ 32 % 2 ^ 24 < 256
        ∧ (2 * 2 ^ 56 + x + 64) % 65536 ≤ 64)
    ∧ (vget ((State.reset.tile 383).slice 3).cec 8 0).toNat < 64 := by
  simp only [State.asks]; decide +kernel

/-- BANK.RETIRE of the last bank and of the understudy, SNAPSHOT at its start and at its end, MODULE.RESET, ATTEST. -/
theorem witness_ManagementCommands_repair : let x := fun (b : Nat) => BitVec.ofNat 64 (383 * 2 ^ 55 + 3 * 2 ^ 53 + b * 2 ^ 49)
  let snap := BitVec.ofNat 64 (3 * 2 ^ 54 + 8 * 2 ^ 42 + 2 * 2 ^ 36)
  let s := { Tests.one placeProc with routes := [(3, 3)], picks := [0] }
  let b : Busy := { header := Tests.header 0x08 1 0 0, args := [snap], seenAge := 0, held := [0, 1], mute := false }
  let e := { s with nets := [(0, { placeNet with st := .held })], snapshot := some (0, [0]), fns := [(0, { Fn.init with busy := some b })] }
  (∀ k ∈ [7, 8], (Tests.ask State.reset 0 Fn.init (Tests.header 0x07 1 0 0) [x k]).asks 0 0x07 (Tests.header 0x07 1 0 0) [x k] ∧ (x k).toNat % 2 ^ 48 = 0
      ∧ (x k).toNat / 2 ^ 55 = 383 ∧ (x k).toNat / 2 ^ 49 % 16 = k)
    ∧ ((State.reset.tile 383).slice 3).st = .normal
    ∧ (Tests.ask s 0 Fn.init (Tests.header 0x08 1 0 0) [snap]).asks 0 0x08 (Tests.header 0x08 1 0 0) [snap] ∧ snap.toNat % 2 ^ 36 = 0
    ∧ snap.toNat / 2 ^ 36 % 64 = 2 ∧ (s.livePorts 3).length = 2 ∧ s.nets = [(0, placeNet)] ∧ placeNet.st = .running
    ∧ (e.fn 0).busy = some b ∧ b.header.toNat / 2 ^ 56 = 0x08 ∧ b.mute = false ∧ (e.fn 0).cmdin = [] ∧ (e.fn 0).replyWait = [] ∧ e.snapshot = some (0, [0])
    ∧ e.thermalHeld = false ∧ e.bulkDone = true
    ∧ { e with bulk := some { pkg := 3, key := 8, ports := [0, 1], next := 0, again := [] } }.bulkDone = false
    ∧ (Tests.ask s 32 Fn.init (Tests.header 0x09 0 0 0) []).asks 32 0x09 (Tests.header 0x09 0 0 0) [] := by
  simp only [State.asks]; decide +kernel

/-- The machine whose tenant's first two pages of device space are mapped, bound to function 1. -/
def Tests.owned (p : Proc) : State :=
  { Tests.mapped p (localLeaf 65536 0 true true false) with
    mem := memPutBytes (Tests.tables (localLeaf 65536 0 true true false)) (16384 + 8) (leBytes 8 (localLeaf 69632 0 true true false))
    tenants := [(0, { placeTenant with fn := 1 })] }

/-- The function. -/
def Tests.fn1 : Fn := { Fn.init with tenant := some 0 }

theorem witness_ManagementCommands_attest : let a := [placeAddr, 1, 2, 3, 4]
  let s := Tests.ask (Tests.owned placeProc) 1 Tests.fn1 (Tests.header 0x0A 5 0 0) a
  s.asks 1 0x0A (Tests.header 0x0A 5 0 0) a ∧ s.attests < 32768 ∧ 32768 ≤ { s with attests := 32768 }.attests ∧ placeAddr.toNat % 8 = 0
    ∧ (s.fn 1).tenant = some 0 ∧ s.prompterPieces 0 placeAddr.toNat 5584 kWrite = some [(65536, 4096), (69632, 1488)] := by
  simp only [State.asks]; decide +kernel

theorem test_management : Tests.status (exec (.tenantCreate 0) (Tests.ask State.reset 0 Fn.init (Tests.header 0x01 3 0 0) [0, Tests.quota, 0])) 0 = [9, 0, 0]
  ∧ Tests.status (exec (.tenantQuota 0) (Tests.ask (Tests.one placeProc) 0 Fn.init (Tests.header 0x02 3 0 0) [0, Tests.quota, 0])) 0 = [9, 0]
  ∧ Tests.status (exec (.cueSync 0) (Tests.ask State.reset 0 Fn.init (Tests.header 0x05 1 0 0) [0])) 0 = [9, 11]
  ∧ Tests.status (exec (.healthReadServer 0) (Tests.ask { State.reset with servers := [(255, { Server.init with correctable := 2, uncorrectable := 3 })] } 0 Fn.init
      (Tests.header 0x06 1 0 0) [BitVec.ofNat 64 (2 ^ 56 + 255 * 2 ^ 32)])) 0 = [9, 0, 2 * 2 ^ 32 + 3]
  ∧ Tests.status (exec (.attest 1) (Tests.ask { Tests.owned placeProc with attests := 32768 } 1 Tests.fn1 (Tests.header 0x0A 5 0 0) [placeAddr, 1, 2, 3, 4])) 1
    = [9, 12] := by decide +kernel

/-- An image of one process without vector registers on logical tile 0: header, one directory entry, descriptor, digest. -/
def Tests.image : List Byte :=
  let b := leBytes 32 (128 * 2 ^ 192 + 2 ^ 48 + 2 ^ 40 + 2 ^ 32 + 0x31494448) ++ leBytes 32 (32 * 2 ^ 96 + 64 * 2 ^ 64 + 2 ^ 32 + 1)
    ++ leBytes 8 placeAddr.toNat ++ leBytes 16 0 ++ leBytes 8 77
  b ++ sha256 b

theorem witness_NetworkCommands_create : let s := { Tests.owned placeProc with procs := [], nets := [], tiles := [], mem := memPutBytes (Tests.owned placeProc).mem 65536 Tests.image }
  let a := [placeAddr, 128, 0]
  let c := Tests.ask s 1 Tests.fn1 (Tests.header 0x10 3 0 0) a
  c.asks 1 0x10 (Tests.header 0x10 3 0 0) a ∧ (c.flight = [] ∧ c.queued = [] ∧ c.remotes = []) ∧ (c.fn 1).tenant = some 0 ∧ mget c.tenants 0 = some { placeTenant with fn := 1 } ∧ c.memErrors = []
    ∧ (c.prompterPieces 0 placeAddr.toNat 128 kRead).bind (fun l => (c.readPieces l).2) = some Tests.image := by
  simp only [State.asks]; decide +kernel

theorem witness_NetworkCommands_image : ((readImage Tests.image).toOption.map (fun m => (m.descs.length, m.sections.length, m.boxes.length, m.wellFormed, m.channels.length)))
  = some (1, 0, 0, true, 0) := by decide +kernel

/-- A tenant of function 1 whose network 0, of generation 1, is in some state. -/
def Tests.net (p : Proc) (st : NetState) : State := { Tests.owned p with nets := [(0, { placeNet with st })] }

/-- A command of it to that network. -/
def Tests.netAsk (p : Proc) (st : NetState) (op : Nat) (a : List Word) : State :=
  Tests.ask (Tests.net p st) 1 Tests.fn1 (Tests.header op a.length 0 1) a

theorem witness_NetworkCommands : let d := { placeProc with st := .dormant }
  let g := fun (s : State) => (s.fn 1).tenant = some 0 ∧ (mget s.tenants 0).isSome = true ∧ (mget s.nets 0).isSome = true
    ∧ headerNet (Tests.header 0x11 1 0 1) = 0 ∧ placeNet.gen = (Tests.header 0x11 1 0 1).toNat / 2 ^ 32 % 256
  g (Tests.netAsk d .created 0x11 [0]) ∧ (Tests.netAsk d .created 0x11 [0]).asks 1 0x11 (Tests.header 0x11 1 0 1) [0]
    ∧ (Tests.netAsk d .created 0x11 [0]).thermalHeld = false ∧ (Tests.netAsk d .created 0x11 [0]).proc? 0 = some d ∧ 0 ∈ placeNet.procs
    ∧ (Tests.netAsk d .created 0x11 [1, 0, 9]).asks 1 0x11 (Tests.header 0x11 3 0 1) [1, 0, 9]
    ∧ { placeNet with offices := [(31, 4)] }.offices = [(31, 4)]
    ∧ (Tests.netAsk placeProc .running 0x12 []).asks 1 0x12 (Tests.header 0x12 0 0 1) [] ∧ (Tests.net placeProc .running).mustWait placeProc = false
    ∧ (Tests.netAsk placeProc .running 0x13 []).asks 1 0x13 (Tests.header 0x13 0 0 1) [] := by
  simp only [State.asks]; decide +kernel

/-- NET.PREEMPT at once, at a deadline and at its deadline; NET.RESUME from a trap and from pre-emption; NET.STATUS. -/
theorem witness_NetworkCommands_capture : let s := Tests.net placeProc .running
  let b : Busy := { header := Tests.header 0x14 2 0 1, args := [0, 5], seenAge := 0, held := [], mute := false }
  let w := { s with nets := [(0, { placeNet with deadline := some (5, 0, false) })], cue := 5, fns := [(1, { Tests.fn1 with busy := some b })] }
  let quota := { placeTenant.quota with spill := placeProc.areaPages false }
  placeProc.st = .ready ∧ placeProc.convoys = [] ∧ placeProc.pend = none ∧ (s.tile 0).pendingStores 0 = [] ∧ s.captureReady 0 = true
    ∧ s.spillCharge 0 + placeProc.areaPages false ≤ quota.spill ∧ s.ringOf 0 = none ∧ placeProc.desc.lproc = 0
    ∧ (Tests.netAsk placeProc .running 0x14 [0, 0]).asks 1 0x14 (Tests.header 0x14 2 0 1) [0, 0]
    ∧ (Tests.netAsk placeProc .running 0x14 [0, 5]).asks 1 0x14 (Tests.header 0x14 2 0 1) [0, 5] ∧ s.cue < 5
    ∧ (w.fn 1).busy = some b ∧ w.snapshot = none ∧ 5 ≤ w.cue ∧ (w.fn 1).cmdin = [] ∧ b.header.toNat / 2 ^ 56 = 0x14 := by
  simp only [State.asks]; decide +kernel

theorem witness_NetworkCommands_resume : let t := { placeProc with st := .trapped, trap := { TrapRegs.zero with tcause := 0x40 } }
  let q := { placeProc with st := .preempted false }
  let s := { Tests.net q .held with tiles := (List.range 384).map (fun t => (t, { Tile.init with withdrawn := t != 5 })) }
  (Tests.netAsk t .held 0x15 [0]).asks 1 0x15 (Tests.header 0x15 1 0 1) [0] ∧ t.park = none
    ∧ t.trap.tcause.toNat % 256 ∉ [0x10, 0x11, 0x42, 0x43, 0xA2] ∧ q.kept = false ∧ q.saved = none ∧ q.moved = none ∧ q.ctxLost = false ∧ s.thermalHeld = false
    ∧ s.homes 0 0 q [] = [5]
    ∧ (Tests.netAsk placeProc .running 0x16 [0]).asks 1 0x16 (Tests.header 0x16 1 0 1) [0]
    ∧ (Tests.net placeProc .running).lproc? placeNet 0 = some (0, placeProc) := by
  simp only [State.asks]; decide +kernel

theorem test_network : Tests.status (exec (.netHold 1) (Tests.netAsk placeProc .running 0x13 [])) 1 = [9, 0]
  ∧ Tests.status (exec (.netHold 1) (Tests.netAsk placeProc .held 0x13 [])) 1 = [9, 6]
  ∧ Tests.after PState (exec (.netStart 1) (Tests.netAsk { placeProc with st := .dormant } .created 0x11 [0])) (·.st) = some .ready
  ∧ Tests.after PState (exec (.netKill 1) (Tests.netAsk placeProc .running 0x12 [])) (·.st) = some .retired
  ∧ (Tests.status (exec (.netStatus 1) (Tests.netAsk placeProc .running 0x16 [0])) 1).take 3 = [9, 0, 2 ^ 60] := by decide +kernel

/-! ## Binding and mapping -/

/-- A process parked by a capture on tile 0, with port 1 sending to the placed channel. -/
def Tests.moved : Proc := { placeProc with st := .preempted false, ports := [(1, 5, true)] }

theorem witness_BindingCommands : let here := BitVec.ofNat 64 (383 * 2 ^ 45)
  let there := BitVec.ofNat 64 (3 * 2 ^ 54)
  let s := { Tests.net Tests.moved .held with chans := [(5, Tests.chan [])], routes := [(3, 1)], self := some 0 }
  let k := Tests.ask s 1 Tests.fn1 (Tests.header 0x17 2 0 1) [0, here]
  let m := Tests.ask s 1 Tests.fn1 (Tests.header 0x17 2 0 1) [0, there]
  (k.fn 1).tenant = some 0 ∧ (mget k.nets 0).isSome = true ∧ placeNet.gen = (Tests.header 0x17 2 0 1).toNat / 2 ^ 32 % 256
    ∧ k.asks 1 0x17 (Tests.header 0x17 2 0 1) [0, here] ∧ m.asks 1 0x17 (Tests.header 0x17 2 0 1) [0, there] ∧ here.toNat % 2 ^ 45 = 0
    ∧ k.lproc? { placeNet with st := .held } 0 = some (0, Tests.moved) ∧ k.portsFitWith [(0, 383)] = true ∧ Tests.moved.moved = none ∧ here.toNat / 2 ^ 45 % 512 = 383 ∧ here.toNat / 2 ^ 54 = k.selfPkg
    ∧ k.tileFree 383 = true ∧ Tests.moved.tile ≠ 383 ∧ Tests.moved.kept = false ∧ there.toNat / 2 ^ 54 ≠ m.selfPkg ∧ m.reachable 3 = true
    ∧ Tests.moved.launches = [] ∧ m.chan? 5 = some (Tests.chan []) ∧ (Tests.chan []).circuits = [] ∧ (Tests.chan []).prods.length = 1
    ∧ m.cacheFull (.circuit 5) = false ∧ m.chans.all (fun v => v.2.resv == 0) = true
    ∧ ((Tests.chan []).prods[0]?).map (·.src) = some (.proc 0 1) := by
  simp only [State.asks]; decide +kernel

/-- CHAN.HOST of the least and the greatest number of slots, RESV.SERVER at the edge of 48 units, COLL.BIND of two ranks. -/
theorem witness_BindingCommands_bind : let w := BitVec.ofNat 64 (15 * 2 ^ 32 + 15 * 2 ^ 16 + 2 ^ 15 + 4)
  let q := { placeTenant with fn := 1, quota := { placeTenant.quota with maxchan := 2, resv := 48 } }
  let s := { Tests.net placeProc .created with tenants := [(0, q)] }
  let h := Tests.ask s 1 Tests.fn1 (Tests.header 0x18 1 0 1) [w]
  let r := Tests.ask s 1 Tests.fn1 (Tests.header 0x19 1 0 1) [BitVec.ofNat 64 (48 * 4096)]
  let bound := (h.addChan 0 (2 ^ 20 + 4096 + 15) 4 0 false false (.proc 0 15) [.host 1 15]).2
  h.asks 1 0x18 (Tests.header 0x18 1 0 1) [w] ∧ w.toNat < 2 ^ 36 ∧ w.getLsbD 13 = false ∧ h.lproc? { placeNet with st := .created } 0 = some (0, placeProc)
    ∧ 4 ≤ w.toNat % 2 ^ 13 ∧ mget placeProc.ports 15 = none ∧ mget (h.fn 1).slots 15 = none ∧ (h.charges 0).maxchan + 2 ≤ q.quota.maxchan
    ∧ bound.portsFitTile (((bound.onTile 0 []).filter (fun v => v.2.inSlot)).map (·.1)) = true
    ∧ r.asks 1 0x19 (Tests.header 0x19 1 0 1) [BitVec.ofNat 64 (48 * 4096)] ∧ (r.charges 0).resv - placeProc.resvNext + 48 ≤ q.quota.resv
    ∧ total (r.procs.filter (fun v => v.1 != 0 && v.2.st != .retired)) (fun v => v.2.resvNext) + 48 ≤ 48
    ∧ 48 < total ([(1, { placeProc with resvNext := 1 })].filter (fun v => v.1 != 0 && v.2.st != .retired)) (fun v => v.2.resvNext) + 48 := by
  simp only [State.asks]; decide +kernel

theorem witness_BindingCommands_group : let x := BitVec.ofNat 64 (5 * 2 ^ 32 + 2)
  let s := { Tests.net placeProc .created with
    mem := memPutBytes (Tests.owned placeProc).mem 65536 (leBytes 2 0 ++ leBytes 2 3), self := some 0, routes := [(3, 1)] }
  let c := Tests.ask s 1 Tests.fn1 (Tests.header 0x22 2 0 1) [x, placeAddr]
  c.asks 1 0x22 (Tests.header 0x22 2 0 1) [x, placeAddr] ∧ c.tagTaken 0 5 = false ∧ c.rankTable 0 placeAddr.toNat 2 = some [0, 3] ∧ distinct [0, 3] = true
    ∧ (∀ e ∈ [0, 3].zipIdx, c.self = some e.1 → e.2 = 0) ∧ (∀ e ∈ [0, 3], c.self = some e ∨ c.reachable e = true) := by
  simp only [State.asks]; decide +kernel

theorem test_binding : Tests.status (exec (.resvServer 1) (Tests.ask { Tests.net placeProc .created with
      tenants := [(0, { placeTenant with fn := 1, quota := { placeTenant.quota with resv := 48 } })], procs := [(0, placeProc), (1, { placeProc with tenant := 1, resvNext := 1 })] }
      1 Tests.fn1 (Tests.header 0x19 1 0 1) [BitVec.ofNat 64 (48 * 4096)])) 1 = [9, 5]
  ∧ Tests.status (exec (.chanRebind 1) (Tests.ask (Tests.net placeProc .running) 1 Tests.fn1 (Tests.header 0x17 2 0 1) [0, BitVec.ofNat 64 (383 * 2 ^ 45)])) 1
    = [9, 6] := by decide +kernel

/-- A command of the tenant's own, to no network. -/
def Tests.mapAsk (s : State) (op : Nat) (a : List Word) : State := Tests.ask s 1 Tests.fn1 (Tests.header op a.length 0 0) a

/-- MAP.ALLOC of a page that is free and of one that is mapped, MAP.FREE, MAP.SYNC and their end, MAP.REMOTE. -/
theorem witness_MappingCommands : let s := Tests.owned placeProc
  let free := placeAddr + 8192
  let b : Busy := { header := Tests.header 0x1B 1 0 0, args := [placeAddr], seenAge := 1, held := [65536], mute := false }
  let w := { s with fns := [(1, { Tests.fn1 with busy := some b })] }
  (Tests.mapAsk s 0x1A [free, 4]).asks 1 0x1A (Tests.header 0x1A 2 0 0) [free, 4] ∧ (Tests.header 0x1A 2 0 0).toNat / 2 ^ 32 % 65536 = 0
    ∧ pageOk free.toNat 0 = true ∧ s.registered 0 free.toNat 4096 = false ∧ s.anyMapped 0 free.toNat 4096 = false ∧ s.anyMapped 0 placeAddr.toNat 4096 = true
    ∧ (match s.allocPage 4096 with
      | some (pa, s1) => (s1.mapPage 0 free.toNat 0 (localLeaf pa 0 true false false)).isSome
      | none => false) = true
    ∧ (Tests.mapAsk s 0x1B [placeAddr]).asks 1 0x1B (Tests.header 0x1B 1 0 0) [placeAddr] ∧ (s.pageAt 0 placeAddr.toNat).map (fun x => (x.1, x.2.1)) = some (16384, 0)
    ∧ (Tests.mapAsk s 0x1D []).asks 1 0x1D (Tests.header 0x1D 0 0 0) [] ∧ (w.fn 1).busy = some b ∧ (w.fn 1).cmdin = [] ∧ b.header.toNat / 2 ^ 56 = 0x1B
    ∧ w.olderDone 0 1 = true ∧ { w with flight := [{ Tests.req 0 (.read 8) with id := 0 }] }.olderDone 0 1 = false
    ∧ (Tests.mapAsk s 0x1C [free, BitVec.ofNat 64 (3 * 2 ^ 54 + 8 * 2 ^ 42 + 4), 0]).asks 1 0x1C (Tests.header 0x1C 3 0 0)
      [free, BitVec.ofNat 64 (3 * 2 ^ 54 + 8 * 2 ^ 42 + 4), 0]
    ∧ (s.mapPage 0 free.toNat 0 (remoteLeaf 3 8 0 0 true false)).isSome = true := by
  simp only [State.asks]; decide +kernel

/-- The tables a walk passes on its way to a page. -/
theorem witness_MappingCommands_tables : let s := Tests.owned placeProc
  let va := placeAddr.toNat
  s.memErrors = [] ∧ s.memPoison = [] ∧ s.entryAt (4096 + 8 * levelIndex va 1) = some 8193 ∧ readPte 8193 1 = .pointer 8192 ∧ readPte 12289 2 = .pointer 12288
    ∧ readPte 16385 3 = .pointer 16384 ∧ 4096 + 8 * levelIndex va 1 + 8 ≤ 16384 + 8 * levelIndex va 4 ∧ 65536 + 4096 ≤ memLimit := by decide +kernel

/-- Registrations made and revoked. -/
theorem witness_MappingCommands_registrations : let s := Tests.owned placeProc
  let va := placeAddr.toNat
  let y := BitVec.ofNat 64 (2 * 2 ^ 32 + 3)
  let r := { s with regs := [(0, Tests.reg8)] }
  (Tests.mapAsk s 0x1E [placeAddr, y, 1]).asks 1 0x1E (Tests.header 0x1E 3 0 0) [placeAddr, y, 1] ∧ y.toNat / 8 % 2 ^ 29 = 0
    ∧ s.regPages 0 va (va + 4096 * 2) true true false 2 = true ∧ (mget s.regs 0).all (·.revoked) = true ∧ (mget r.regs 0).any (fun r => !r.revoked) = true
    ∧ s.cacheFull (.registration 0) = false
    ∧ (Tests.mapAsk r 0x1F [0]).asks 1 0x1F (Tests.header 0x1F 1 0 0) [0] ∧ Tests.reg8.tenant = 0 ∧ { Tests.reg8 with tenant := 1 }.tenant ≠ 0 := by
  simp only [State.asks]; decide +kernel

/-- An import and the window. -/
theorem witness_MappingCommands_import : let s := Tests.owned placeProc
  let va := placeAddr.toNat
  let r := { s with regs := [(0, Tests.reg8)] }
  (Tests.mapAsk r 0x20 [BitVec.ofNat 64 (3 * 4096)]).asks 1 0x20 (Tests.header 0x20 1 0 0) [BitVec.ofNat 64 (3 * 4096)] ∧ { r with self := some 3 }.self = some 3
    ∧ { r with self := some 3 }.reg? 0 = some Tests.reg8 ∧ { r with routes := [(3, 1)] }.reachable 3 = true ∧ r.self ≠ some 3 ∧ r.reachable 3 = false
    ∧ r.cacheFull (.imported 0 3 0) = false
    ∧ (Tests.mapAsk s 0x21 [placeAddr]).asks 1 0x21 (Tests.header 0x21 1 0 0) [placeAddr] ∧ va % 2 ^ 36 = 0 ∧ (va + 4096) % 2 ^ 36 ≠ 0 := by
  simp only [State.asks]; decide +kernel

theorem test_mapping : (Tests.status (exec (.mapAlloc 1) (Tests.mapAsk (Tests.owned placeProc) 0x1A [placeAddr, 4])) 1) = [9, 6]
  ∧ (Tests.status (exec (.regCreate 1) (Tests.mapAsk (Tests.owned placeProc) 0x1E [placeAddr, BitVec.ofNat 64 (2 * 2 ^ 32 + 3), 1])) 1) = [9, 0, 4096]
  ∧ (Tests.status (exec (.regRevoke 1) (Tests.mapAsk { Tests.owned placeProc with regs := [(0, { Tests.reg8 with tenant := 1 })] } 0x1F [0])) 1) = [9, 3]
  ∧ (Tests.status (exec (.windowSet 1) (Tests.mapAsk (Tests.owned placeProc) 0x21 [placeAddr + 4096])) 1) = [9, 3]
  ∧ (Tests.status (exec (.regImport 1) (Tests.mapAsk (Tests.owned placeProc) 0x20 [BitVec.ofNat 64 (3 * 4096)])) 1) = [9, 11] := by decide +kernel
end

section
/-!
PROOFS. Multiplication, division and the jumps (R124, R134, R135): the fields of a scalar word put together from its
parts, what a word of the current process that writes one register or raises a cause does, and the statements O11, O14 and
O15.
-/

namespace Sys2Proof.Machine

/-! ## Fields of a scalar word put together from its parts (R54) -/

theorem sfield_formatA (m : BitVec 6) (a b c : GReg) (ac : BitVec 2) (f : BitVec 9) :
    let w : SWord := m ++ a ++ b ++ c ++ ac ++ f
    sfield w 26 6 = m ∧ sfield w 21 5 = a ∧ sfield w 16 5 = b ∧ sfield w 11 5 = c ∧ sfield w 9 2 = ac
      ∧ sfield w 0 9 = f := by
  have field : ∀ lo len,
      sfield (m ++ a ++ b ++ c ++ ac ++ f) lo len = (m ++ a ++ b ++ c ++ ac ++ f).extractLsb' lo len := fun _ _ => rfl
  simp (disch := omega) only [field, BitVec.extractLsb'_append_eq_of_le, BitVec.extractLsb'_append_eq_of_add_le,
    Nat.reduceSub, BitVec.extractLsb'_eq_self, and_self]

theorem sfield_formatI (m : BitVec 6) (a b : GReg) (imm : BitVec 16) :
    let w : SWord := m ++ a ++ b ++ imm
    sfield w 26 6 = m ∧ sfield w 21 5 = a ∧ sfield w 16 5 = b ∧ sfield w 0 16 = imm := by
  have field : ∀ lo len, sfield (m ++ a ++ b ++ imm) lo len = (m ++ a ++ b ++ imm).extractLsb' lo len := fun _ _ => rfl
  simp (disch := omega) only [field, BitVec.extractLsb'_append_eq_of_le, BitVec.extractLsb'_append_eq_of_add_le,
    Nat.reduceSub, BitVec.extractLsb'_eq_self, and_self]

theorem sfield_formatJ (m : BitVec 6) (a : GReg) (d : BitVec 21) :
    let w : SWord := m ++ a ++ d
    sfield w 26 6 = m ∧ sfield w 21 5 = a ∧ sfield w 0 21 = d := by
  have field : ∀ lo len, sfield (m ++ a ++ d) lo len = (m ++ a ++ d).extractLsb' lo len := fun _ _ => rfl
  simp (disch := omega) only [field, BitVec.extractLsb'_append_eq_of_le, BitVec.extractLsb'_append_eq_of_add_le,
    Nat.reduceSub, BitVec.extractLsb'_eq_self, and_self]

/-- A word of three registers of format A decodes in class EX alone (R58, R62). -/
theorem decRrr_formatA (m : BitVec 6) (a b c : GReg) (ac : BitVec 2) (f : BitVec 9) (k : GReg → GReg → GReg → Instr) :
    decRrr (m ++ a ++ b ++ c ++ ac ++ f) k = if ac = 0 then .ok (k a b c) else .error 0x04 := by
  obtain ⟨-, ha, hb, hc, hac, -⟩ := sfield_formatA m a b c ac f
  rw [decRrr, ha, hb, hc, hac]
  by_cases h : ac = 0 <;> simp [decideRow, h]

theorem decImm_formatI (m : BitVec 6) (a b : GReg) (imm : BitVec 16) (k : GReg → GReg → BitVec 16 → Instr) :
    decImm (m ++ a ++ b ++ imm) k = .ok (k a b imm) := by
  obtain ⟨-, ha, hb, hi⟩ := sfield_formatI m a b imm
  rw [decImm, ha, hb, hi]

/-! ## What a word of the current process does -/

theorem State.binOp_eq_wrote {s : State} {p : Proc} (h : s.proc? s.cur = some p) (a b c : GReg)
    (f : Word → Word → Word) : s.binOp a b c f = s.wrote p a (f (p.rd b) (p.rd c)) := by
  rw [State.binOp, State.withCur_eq h, State.finishWr, State.wrote, State.setCur, Proc.advance, Proc.wr_pc]

/-- A trap of the scalar stream leaves its process as R395 says; the request of a parked word is not kept. -/
theorem State.proc?_takeTrap {s : State} {pid : Nat} {p : Proc} (h : s.proc? pid = some p) (t : TrapInfo)
    (ho : t.origin = 0) :
    (s.takeTrap pid t).proc? pid = some (p.trapped t.cause 0 t.pc t.addr t.elem t.info) := by
  simp only [State.takeTrap, h, ho, State.enterRecord]
  obtain ⟨ts, ns, e⟩ := State.enterToks_frame (s.setProc pid _) _ _
  rw [e]
  exact State.proc?_setProc s pid _

/-- A word that traps raises its cause and leaves the rest of the machine alone (R119, R395, R416). -/
theorem State.raised_trapCur (s : State) (p : Proc) (cause : Cause) (addr info : Word) :
    s.raised p cause addr info (s.trapCur p cause addr info) := by
  refine ⟨State.proc?_takeTrap (s.proc?_setCur _) _ rfl, ?_⟩
  obtain ⟨ps, ts, ns, e, others⟩ := (s.setCur { p with sig := p.sigOld }).takeTrap_frame s.cur
    { cause, origin := 0, pc := p.pc, addr, elem := 0, info }
  rw [State.trapCur, e]
  exact ⟨fun k hk => (others k hk).trans (s.proc?_setProc_ne _ hk), rfl, rfl, rfl⟩

/-! ## Multiplication and division (R124) -/

/-- The operations of major 0x0A by their function codes. -/
def multiplyDivideWords : List (BitVec 9 × (GReg → GReg → GReg → Instr)) :=
  [(0, .mul), (1, .mulh), (2, .mulhu), (3, .div), (4, .divu), (5, .rem), (6, .remu)]

theorem decodeScalar_multiplyDivide (priv : Bool) {w : SWord} (hm : sfield w 26 6 = 0x0A#6)
    {x : BitVec 9 × (GReg → GReg → GReg → Instr)} (hx : x ∈ multiplyDivideWords) (hf : sfield w 0 9 = x.1) :
    decodeScalar priv w = decRrr w x.2 := by
  simp only [multiplyDivideWords, List.mem_cons, List.not_mem_nil, or_false] at hx
  rcases hx with rfl | rfl | rfl | rfl | rfl | rfl | rfl <;> simp [decodeScalar, hm, hf]

theorem divSigned_eq_sdiv (x : Word) {y : Word} (h : y ≠ 0) : divSigned x y = x.sdiv y := by
  rw [divSigned, if_neg h]
  apply BitVec.eq_of_toInt_eq
  rw [BitVec.toInt_ofInt, BitVec.toInt_sdiv]

/-- The remainder is what the quotient leaves, at a zero divisor and at -2^63 / -1 too. -/
theorem remSigned_eq_sub (x y : Word) : remSigned x y = x - y * divSigned x y := by
  by_cases h : y = 0
  · simp [remSigned, h]
  · rw [remSigned, divSigned, if_neg h, if_neg h, Int.tmod_def, Int.sub_eq_add_neg, BitVec.ofInt_add, BitVec.ofInt_neg,
      BitVec.ofInt_mul, BitVec.ofInt_toInt, BitVec.ofInt_toInt, BitVec.sub_eq_add_neg]

theorem remUnsigned_eq_sub (x y : Word) : remUnsigned x y = x - y * divUnsigned x y := by
  by_cases h : y = 0
  · simp [remUnsigned, h]
  · rw [remUnsigned, divUnsigned, if_neg h, if_neg h, BitVec.eq_sub_iff_add_eq]
    calc BitVec.ofNat 64 (x.toNat % y.toNat) + y * BitVec.ofNat 64 (x.toNat / y.toNat)
        = BitVec.ofNat 64 (x.toNat % y.toNat + y.toNat * (x.toNat / y.toNat)) := by
          rw [BitVec.ofNat_add, BitVec.ofNat_mul, BitVec.ofNat_toNat, BitVec.setWidth_eq]
      _ = x := by rw [Nat.mod_add_div, BitVec.ofNat_toNat, BitVec.setWidth_eq]

/-- The signed quotient: all ones at a zero divisor, the dividend at -2^63 / -1, else rounded toward zero. -/
theorem divSigned_spec (x y : Word) :
    (y = 0 → divSigned x y = 0xFFFFFFFFFFFFFFFF)
    ∧ (y = 0xFFFFFFFFFFFFFFFF → x = 0x8000000000000000 → divSigned x y = x)
    ∧ (y ≠ 0 → ¬(y = 0xFFFFFFFFFFFFFFFF ∧ x = 0x8000000000000000) →
      (divSigned x y).toInt = x.toInt.tdiv y.toInt) := by
  refine ⟨?_, ?_, fun h hc => ?_⟩
  · rintro rfl; rfl
  · rintro rfl rfl; decide
  · rw [divSigned_eq_sdiv x h]
    apply BitVec.toInt_sdiv_of_ne_or_ne
    by_cases hx : x = BitVec.intMin 64
    · exact .inr fun hy => hc ⟨hy, hx⟩
    · exact .inl hx

theorem divUnsigned_spec (x y : Word) :
    (y = 0 → divUnsigned x y = 0xFFFFFFFFFFFFFFFF) ∧ (y ≠ 0 → (divUnsigned x y).toNat = x.toNat / y.toNat) := by
  refine ⟨?_, fun h => ?_⟩
  · rintro rfl; rfl
  · rw [divUnsigned, if_neg h, ← BitVec.udiv_def, BitVec.toNat_udiv]

section
variable {s : State} {p : Proc} (h : s.proc? s.cur = some p) (a b c : GReg)
include h

theorem exec_mul : exec (.mul a b c) s = s.wrote p a (BitVec.ofNat 64 ((p.rd b).toNat * (p.rd c).toNat)) :=
  State.binOp_eq_wrote h a b c fun x y => x * y

theorem exec_mulh :
    exec (.mulh a b c) s = s.wrote p a (BitVec.ofInt 64 ((p.rd b).toInt * (p.rd c).toInt / 2 ^ 64)) :=
  State.binOp_eq_wrote h a b c fun x y => BitVec.ofInt 64 (x.toInt * y.toInt / 2 ^ 64)

theorem exec_mulhu :
    exec (.mulhu a b c) s = s.wrote p a (BitVec.ofNat 64 ((p.rd b).toNat * (p.rd c).toNat / 2 ^ 64)) :=
  State.binOp_eq_wrote h a b c fun x y => BitVec.ofNat 64 (x.toNat * y.toNat / 2 ^ 64)

theorem exec_div : exec (.div a b c) s = s.wrote p a (divSigned (p.rd b) (p.rd c)) := State.binOp_eq_wrote h a b c _

theorem exec_divu : exec (.divu a b c) s = s.wrote p a (divUnsigned (p.rd b) (p.rd c)) :=
  State.binOp_eq_wrote h a b c _

theorem exec_rem : exec (.rem a b c) s = s.wrote p a (remSigned (p.rd b) (p.rd c)) := State.binOp_eq_wrote h a b c _

theorem exec_remu : exec (.remu a b c) s = s.wrote p a (remUnsigned (p.rd b) (p.rd c)) :=
  State.binOp_eq_wrote h a b c _

end

/-- Settles O11. The quotients and remainders are words `q` and `r` of their own, so that REM is tied to DIV by
`remSigned_eq_sub` and the corners of the quotient stand in `divSigned_spec`. -/
theorem multiplyDivide : Obligations.MultiplyDivide := by
  refine ⟨fun priv a b c ac x hx => ?_, fun s p a b c h => ?_⟩
  · obtain ⟨⟨f, k⟩, hk, rfl⟩ := List.mem_map.1
      (show x ∈ multiplyDivideWords.map (fun y => (y.1, y.2 a b c)) from hx)
    obtain ⟨hm, -, -, -, -, hf⟩ := sfield_formatA 0x0A#6 a b c ac f
    exact (decodeScalar_multiplyDivide priv hm hk hf).trans (decRrr_formatA _ a b c ac f k)
  · exact ⟨exec_mul h a b c, exec_mulh h a b c, exec_mulhu h a b c,
      ⟨_, _, exec_div h a b c, exec_rem h a b c, remSigned_eq_sub _ _, divSigned_spec _ _⟩,
      ⟨_, _, exec_divu h a b c, exec_remu h a b c, remUnsigned_eq_sub _ _, divUnsigned_spec _ _⟩⟩

/-! ## Jumps (R134, R135) -/

theorem decodeScalar_jal (priv : Bool) {w : SWord} (hm : sfield w 26 6 = 0x1A#6) :
    decodeScalar priv w = .ok (.jal (sfield w 21 5) (sfield w 0 21)) := by simp [decodeScalar, hm]

theorem decodeScalar_jalr (priv : Bool) {w : SWord} (hm : sfield w 26 6 = 0x1B#6) :
    decodeScalar priv w = decImm w .jalr := by simp [decodeScalar, hm]

/-- A displacement in words, sign-extended and then taken to bytes, is four times the signed value (R119). -/
theorem four_mul_signExt {n : Nat} (x : BitVec n) : 4 * signExt x = BitVec.ofInt 64 (4 * x.toInt) :=
  (BitVec.ofInt_mul 4 x.toInt).symm

theorem exec_jal {s : State} {p : Proc} (h : s.proc? s.cur = some p) (a : GReg) (d : BitVec 21) :
    exec (.jal a d) s
      = .next (s.setProc s.cur { p.wr a (p.pc + 4) with pc := p.pc + BitVec.ofInt 64 (4 * d.toInt) }) := by
  rw [← four_mul_signExt]
  exact State.withCur_eq h _

/-- Settles O14: by the fields of format J and `exec_jal`; the write to g0 is discarded by `Proc.wr`. -/
theorem jumpAndLink : Obligations.JumpAndLink := by
  refine ⟨fun priv a d => ?_, fun s p a d h => ⟨exec_jal h a d, exec_jal h 0 d⟩⟩
  obtain ⟨hm, ha, hd⟩ := sfield_formatJ 0x1A#6 a d
  rw [decodeScalar_jal priv hm, ha, hd]

/-- JALR traps or jumps by the low bits of its target (R135). -/
theorem exec_jalr {s : State} {p : Proc} (h : s.proc? s.cur = some p) (a b : GReg) (imm : BitVec 16) :
    let t := p.rd b + BitVec.ofInt 64 imm.toInt
    exec (.jalr a b imm) s
      = .next (if t.toNat % 4 ≠ 0 then s.trapCur p 0x08 t else s.setProc s.cur { p.wr a (p.pc + 4) with pc := t }) :=
  State.withCur_eq h _

/-- Settles O15: by `exec_jalr`, and by `State.raised_trapCur` at a misaligned target. -/
theorem jumpRegister : Obligations.JumpRegister := by
  refine ⟨fun priv a b imm => ?_, fun s p a b imm h => ⟨fun ht => ?_, fun ht => ⟨_, ?_, s.raised_trapCur p 0x08 _ 0⟩⟩⟩
  · rw [decodeScalar_jalr priv (sfield_formatI 0x1B#6 a b imm).1, decImm_formatI]
  · rw [exec_jalr h, if_neg (Decidable.not_not.2 ht)]
  · rw [exec_jalr h, if_pos ht]

end Sys2Proof.Machine
end
